-- ==== Sys2Proof/Word.lean ====
section
/-! DEFINITION. The word types, the little-endian byte strings, and the finite names (engine, register space,
channel) that every other file uses. -/

namespace Sys2Proof

/-- A 32-bit value: a register, a command word, an operand, a header field (`u32` of R9). -/
abbrev U32 := BitVec 32

/-- A 16-bit value: a CRC copy of the frame header (`u16`, R320). -/
abbrev U16 := BitVec 16

/-- One byte of a byte space (R201). -/
abbrev Byte := BitVec 8

/-- `u32(x)` of R9: `x mod 2^32`. -/
def u32 (n : Nat) : U32 := BitVec.ofNat 32 n

/-- `rd8(x) = x − (x mod 8)` of R8. -/
def rd8 (n : Nat) : Nat := n - n % 8

/-- `pad8(x) = rd8(x + 7)` of R8. -/
def pad8 (n : Nat) : Nat := rd8 (n + 7)

/-- `ceil_div(a, b) = (a + b − 1) div b` of R9. -/
def ceilDiv (a b : Nat) : Nat := (a + b - 1) / b

/-- The two DMA Transfer Engines (R25, R501). -/
inductive Engine where
  | tx
  | rx
deriving DecidableEq, Repr, Inhabited

/-- The four register spaces, each with its own interrupt line (R401, R302 `SPACE`). -/
inductive Space where
  | mtx
  | mrx
  | dtx
  | drx
deriving DecidableEq, Repr, Inhabited

/-- The three command channels `CH_TX`, `CH_RX`, `CH_BUS` (R15). -/
inductive Channel where
  | tx
  | rx
  | bus
deriving DecidableEq, Repr, Inhabited

/-- The DMA controller space and line of an engine (R501: `D`). -/
def Engine.space : Engine → Space
  | .tx => .dtx
  | .rx => .drx

/-- The channel that runs the DMA and CODEC commands of an engine (R18). -/
def Engine.channel : Engine → Channel
  | .tx => .tx
  | .rx => .rx

end Sys2Proof
end

