-- ==== Sys2Proof/Config.lean ====
section
/-! DEFINITION. The implementation parameters of R8 as one plain record, the choices the environment makes
(moves and picks, R15 to R20), and the free values: opaque constants that no proof can see into. -/

namespace Sys2Proof

/-- Byte size of the frame header: fixed at 32 (R8, R320). -/
def hdrSize : Nat := 32

/-- `DMAC_MAP` (R8, R131): the offset of each DMA controller register. -/
structure DmacMap where
  irqMask : U32 := 0x080#32
  irqPending : U32 := 0x084#32
  control : U32 := 0x400#32
  transferId : U32 := 0x404#32
  transferSubmit : U32 := 0x408#32
  flags : U32 := 0x40C#32
  destAddress : U32 := 0x410#32
  srcAddress : U32 := 0x414#32
  xLength : U32 := 0x418#32
  yLength : U32 := 0x41C#32
  destStride : U32 := 0x420#32
  srcStride : U32 := 0x424#32
  transferDone : U32 := 0x428#32
deriving DecidableEq, Repr, Inhabited

/-- `MODEM_TX_MAP` (R8, R140). -/
structure ModemTxMap where
  reset : U32 := 0x00#32
  txSrcSel : U32 := 0x04#32
deriving DecidableEq, Repr, Inhabited

/-- `MODEM_RX_MAP` (R8, R141); of the four coefficient offsets the first `FR_COEF_COUNT` exist. -/
structure ModemRxMap where
  reset : U32 := 0x00#32
  rxEnable : U32 := 0x04#32
  loopBw : U32 := 0x08#32
  eqGain : U32 := 0x0C#32
  bypassCoding : U32 := 0x10#32
  bypassEq : U32 := 0x14#32
  detThresh : U32 := 0x18#32
  payloadLen : U32 := 0x1C#32
  frCoef0 : U32 := 0x20#32
  frCoef1 : U32 := 0x24#32
  frCoef2 : U32 := 0x28#32
  frCoef3 : U32 := 0x2C#32
deriving DecidableEq, Repr, Inhabited

/-- The parameter `CRC16` (R8, R601): the spec's default, or some other function with the property R601 asks, named by an
index. -/
inductive CrcChoice where
  | ccittFalse
  | other (index : Nat)
deriving DecidableEq, Repr, Inhabited

/-- The parameter `RX_ADVANCE` (R8, R835). -/
inductive RxAdvance where
  | plain
  | rev2
deriving DecidableEq, Repr, Inhabited

/-- The parameters of R8, in the table's order. A field's default stands only where R8 states one;
`DEFAULT_MTU` and `TABLE_CAP` are derived (`Config.defaultMtu`, `Config.tableCap`); `HDR_SIZE` and `ALIGN` are fixed. -/
structure Config where
  bufSizeTx : Nat
  bufSizeRx : Nat
  bufPhysTx : Nat
  bufPhysRx : Nat
  platformOkTx : Bool
  platformOkRx : Bool
  mapOkTx : Bool
  mapOkRx : Bool
  hostMemSize : Nat
  guid : U32
  resvPad : Nat
  crc16 : CrcChoice := .ccittFalse
  minMtu : Nat
  maxMtu : Nat
  maxFrameSize : Nat
  bpThreshold : Nat
  bpThrottleEvery : Nat
  bpPauseMs : Nat
  dmaIrqTimeoutMs : Nat
  numTransferIds : Nat := 4
  dmacMap : DmacMap := {}
  modemTxMap : ModemTxMap := {}
  modemRxMap : ModemRxMap := {}
  frCoefCount : Nat
  rxFirstDeadlineMs : Nat := 60000
  rxFrameDeadlineMs : Nat := 60000
  rxIrqTimeoutMs : Nat
  rxIrqRetries : Nat
  rxLenInvalid : List U32 := [0xFFFFFFFF#32]
  rxFrameSzMax : Nat := maxMtu
  rxAdvance : RxAdvance := .rev2
  minFrameSize : Nat := hdrSize + resvPad
  rxqDepth : Nat
  busMayFail : Bool := false
  timeAbstract : Bool := false
  dmacFair : Bool := false
deriving DecidableEq, Repr

/-- `BUF_SIZE_e`. -/
def Config.bufSize (c : Config) : Engine → Nat
  | .tx => c.bufSizeTx
  | .rx => c.bufSizeRx

/-- `BUF_PHYS_e`. -/
def Config.bufPhys (c : Config) : Engine → Nat
  | .tx => c.bufPhysTx
  | .rx => c.bufPhysRx

/-- `PLATFORM_OK_e`. -/
def Config.platformOk (c : Config) : Engine → Bool
  | .tx => c.platformOkTx
  | .rx => c.platformOkRx

/-- `MAP_OK_e`. -/
def Config.mapOk (c : Config) : Engine → Bool
  | .tx => c.mapOkTx
  | .rx => c.mapOkRx

/-- `DEFAULT_MTU = rd8(MAX_FRAME_SIZE − HDR_SIZE − RESV_PAD)` (R8). -/
def Config.defaultMtu (c : Config) : Nat := rd8 (c.maxFrameSize - hdrSize - c.resvPad)

/-- `TABLE_CAP = BUF_SIZE_RX div MIN_FRAME_SIZE` (R8, R841). -/
def Config.tableCap (c : Config) : Nat := c.bufSizeRx / c.minFrameSize

/-- The configuration of `State.reset`. DESIGN CHOICE (log 1): the values R8 leaves OPEN are those of the
spec's own test configuration TCFG (95_test_vectors.md section 1); the others are R8's defaults. No statement
rests on it: statements hold for every configuration. -/
def Config.initial : Config where
  bufSizeTx := 4096
  bufSizeRx := 4096
  bufPhysTx := 0x10000000
  bufPhysRx := 0x11000000
  platformOkTx := true
  platformOkRx := true
  mapOkTx := true
  mapOkRx := true
  hostMemSize := 65536
  guid := 0x0D15EA5E#32
  resvPad := 16
  minMtu := 64
  maxMtu := 1024
  maxFrameSize := 1024
  bpThreshold := 4
  bpThrottleEvery := 2
  bpPauseMs := 10
  dmaIrqTimeoutMs := 100
  frCoefCount := 4
  rxIrqTimeoutMs := 1000
  rxIrqRetries := 3
  rxqDepth := 8

/-! ## What the environment chooses: moves and picks (R15 to R21) -/

/-- Which completion of a wait is taken when a channel or the worker stands at one (R20, R407): the predicate's,
the timeout's, or the bus error's. A step that is no wait does not read it. -/
inductive Pick where
  | wake
  | expire
  | fail
deriving DecidableEq, Repr, Inhabited

/-- A register the host can read (R101). -/
inductive HostReg where
  | arg (c : Channel) (i : Fin 8)
  | cmd (c : Channel)
  | busy (c : Channel)
  | status (c : Channel)
  | res (c : Channel) (i : Fin 10)
  | issueStatus
deriving DecidableEq, Repr, Inhabited

/-- What the `HOST` agent may do in one step (R17). -/
inductive HostAct where
  | writeArg (c : Channel) (i : Fin 8) (v : U32)
  | issue (w : U32)
  | readReg (r : HostReg)
  | readMem (addr len : Nat)
  | writeMem (addr : Nat) (bytes : List Byte)
deriving DecidableEq, Repr, Inhabited

/-- One choice of the interleaving: which agent of R15 moves, and with which free choice; and the external
reset event of R1001. -/
inductive Move where
  | host (a : HostAct)
  | channel (c : Channel) (p : Pick)
  | worker (p : Pick)
  | dmac (e : Engine)
  | modemRx (len : U32) (frame : List Byte)
  | modemTx
  | clock
  | reset
deriving DecidableEq, Repr, Inhabited

/-- The agents of R15. -/
inductive Agent where
  | host
  | channel (c : Channel)
  | rxw
  | dmac (e : Engine)
  | modemRx
  | modemTx
  | clock
deriving DecidableEq, Repr, Inhabited

/-- The agent that makes a move; the reset event is no agent's. -/
def Move.agent : Move → Option Agent
  | .host _ => some .host
  | .channel c _ => some (.channel c)
  | .worker _ => some .rxw
  | .dmac e => some (.dmac e)
  | .modemRx _ _ => some .modemRx
  | .modemTx => some .modemTx
  | .clock => some .clock
  | .reset => none

/-! ## Free values: constants without a body -/

/-- A byte space of R201 (the register spaces are `Space`). -/
inductive ByteSpace where
  | buf (e : Engine)
  | hostMem
deriving DecidableEq, Repr, Inhabited

/-- The move taken when the script names none (R16: free interleaving), by draw number. -/
opaque Config.freeMove : Nat → Move

/-- A byte past the end of a received frame (R543 "free-draw bytes"), by draw number. -/
opaque Config.freeByte : Nat → Byte

/-- A byte of a byte space that nothing has written since reset number `epoch` (R111, R1001). -/
opaque Config.resetByte : (epoch : Nat) → ByteSpace → (addr : Nat) → Byte

/-- A Frame Offset Table entry that nothing has written since reset number `epoch` (R161). -/
opaque Config.resetTable : (epoch : Nat) → (index : Nat) → U32

/-- A `crc_status` entry that nothing has written since reset number `epoch` (R161): the verdict's number,
read modulo 4. -/
opaque Config.resetVerdict : (epoch : Nat) → (index : Nat) → Nat

/-- The `hdr0` fields after reset number `epoch` (R161): nine header words. -/
opaque Config.resetHdr0 : (epoch : Nat) → (field : Nat) → U32

/-! ## The parameter `CRC16` when it is not the default (R8, R601) -/

/-- "any single-bit change of `b` changes `CRC16(b)`", which R601 asks of every choice of the parameter. -/
def DetectsBitChange (f : List Byte → U16) : Prop :=
  ∀ (xs ys : List Byte) (b : Byte) (i : Nat), i < 8 → f (xs ++ b :: ys) ≠ f (xs ++ (b ^^^ (1#8 <<< i)) :: ys)

/-- The sum of the bytes without carries: it only shows that functions with the property exist. -/
def xorSum (bs : List Byte) : U16 := bs.foldr (fun b c => b.setWidth 16 ^^^ c) 0#16

theorem foldr_xor_injective (xs : List Byte) (c d : U16) :
    xs.foldr (fun b c => b.setWidth 16 ^^^ c) c ≠ xs.foldr (fun b c => b.setWidth 16 ^^^ c) d ↔ c ≠ d := by
  induction xs with
  | nil => rfl
  | cons x xs ih => simpa using ih

theorem xorSum_detectsBitChange : DetectsBitChange xorSum := by
  intro xs ys b i hi h
  simp only [xorSum, List.foldr_append, List.foldr_cons] at h
  refine (foldr_xor_injective xs _ _).2 (fun e => ?_) h
  have hb := congrArg (fun v => BitVec.getLsbD v i) e
  have h16 : i < 16 := by omega
  simp [hi, h16] at hb

/-- A total function from byte strings to 16 bits with the property that R601 asks of it. -/
structure CrcFunction where
  fn : { f : List Byte → U16 // DetectsBitChange f } := ⟨xorSum, xorSum_detectsBitChange⟩
deriving Inhabited

/-- Another choice of the parameter `CRC16` (R601), by its index: of it no more is known than that property. -/
opaque Config.otherCrc : (index : Nat) → CrcFunction

end Sys2Proof
end

