-- ==== Sys2Proof/Syntax.lean ====
section
/-! DEFINITION. The 24 host commands (R305): one constructor per row of the opcode table. The operands of a
command are in its channel's argument registers (R304), so a constructor carries only the fields of its word. -/

namespace Sys2Proof

/-- A host command, with the fields its format defines (R302, R303). -/
inductive Instr where
  | regRead (sp : Space)
  | regWrite (sp : Space)
  | irqMask (sp : Space)
  | irqUnmask (sp : Space)
  | irqWait (sp : Space)
  | dmaOpen (e : Engine)
  | dmaWrite (e : Engine) (cyc cnf : Bool)
  | dmaRead (e : Engine)
  | dmaClose (e : Engine)
  | codecEncode (e : Engine)
  | codecDecode (e : Engine)
  | codecCrc (e : Engine)
  | txInit
  | txReset
  | txWrite
  | txClose
  | txSetMtu
  | rxInit
  | rxReset
  | rxStart
  | rxStop
  | rxReceive
  | rxRead
  | rxClose
deriving DecidableEq, Repr, Inhabited

/-- The channel a command runs on (R18). -/
def Instr.channel : Instr → Channel
  | .regRead _ | .regWrite _ | .irqMask _ | .irqUnmask _ | .irqWait _ => .bus
  | .dmaOpen e | .dmaWrite e _ _ | .dmaRead e | .dmaClose e => e.channel
  | .codecEncode e | .codecDecode e | .codecCrc e => e.channel
  | .txInit | .txReset | .txWrite | .txClose | .txSetMtu => .tx
  | .rxInit | .rxReset | .rxStart | .rxStop | .rxReceive | .rxRead | .rxClose => .rx

end Sys2Proof
end

