-- ==== Sys2Proof/WellFormed.lean ====
section
/-! DEFINITION. Well-formedness: the constraints R8 puts on a configuration, checked at configuration time. A
command has no ill-formed term: every field of `Instr` is a finite enumeration and every value of it is legal
(R303, R311). -/

namespace Sys2Proof

/-- A register map is legal when its offsets are distinct and multiples of 4 (R8). -/
def offsetsLegal (offsets : List U32) : Bool :=
  decide offsets.Nodup && offsets.all fun o => o.toNat % 4 == 0

def DmacMap.offsets (m : DmacMap) : List U32 :=
  [m.irqMask, m.irqPending, m.control, m.transferId, m.transferSubmit, m.flags, m.destAddress,
   m.srcAddress, m.xLength, m.yLength, m.destStride, m.srcStride, m.transferDone]

def ModemTxMap.offsets (m : ModemTxMap) : List U32 := [m.reset, m.txSrcSel]

/-- The coefficient offsets that exist: the first `FR_COEF_COUNT` (R8, R141). -/
def ModemRxMap.frCoefs (m : ModemRxMap) (n : Nat) : List U32 :=
  [m.frCoef0, m.frCoef1, m.frCoef2, m.frCoef3].take n

def ModemRxMap.offsets (m : ModemRxMap) (n : Nat) : List U32 :=
  [m.reset, m.rxEnable, m.loopBw, m.eqGain, m.bypassCoding, m.bypassEq, m.detThresh, m.payloadLen]
    ++ m.frCoefs n

/-- `HDR_SIZE + RESV_PAD < BUF_SIZE_e < 2^31`. -/
def Config.bufSizeOk (c : Config) (e : Engine) : Bool :=
  decide (hdrSize + c.resvPad < c.bufSize e) && decide (c.bufSize e < 2 ^ 31)

/-- `BUF_PHYS_e + BUF_SIZE_e <= 2^32`. -/
def Config.bufPhysOk (c : Config) (e : Engine) : Bool :=
  decide (c.bufPhys e + c.bufSize e ≤ 2 ^ 32)

/-- The two physical windows do not overlap (R202). -/
def Config.windowsOk (c : Config) : Bool :=
  decide (c.bufPhysTx + c.bufSizeTx ≤ c.bufPhysRx) || decide (c.bufPhysRx + c.bufSizeRx ≤ c.bufPhysTx)

def Config.hostMemOk (c : Config) : Bool := decide (c.hostMemSize < 2 ^ 32)

/-- `RESV_PAD` is a multiple of 8. -/
def Config.resvPadOk (c : Config) : Bool := c.resvPad % 8 == 0

/-- `8 <= MIN_MTU <= MAX_MTU < 2^31` and `MIN_MTU mod 8 = 0`. -/
def Config.mtuOk (c : Config) : Bool :=
  decide (8 ≤ c.minMtu) && decide (c.minMtu ≤ c.maxMtu) && decide (c.maxMtu < 2 ^ 31) && c.minMtu % 8 == 0

/-- `MAX_FRAME_SIZE >= HDR_SIZE + RESV_PAD + MIN_MTU`. -/
def Config.maxFrameOk (c : Config) : Bool := decide (hdrSize + c.resvPad + c.minMtu ≤ c.maxFrameSize)

/-- `DEFAULT_MTU` lies in `[MIN_MTU, MAX_MTU]`. -/
def Config.defaultMtuOk (c : Config) : Bool :=
  decide (c.minMtu ≤ c.defaultMtu) && decide (c.defaultMtu ≤ c.maxMtu)

/-- The backpressure parameters are at least 1 (the pause may be 0). -/
def Config.backpressureOk (c : Config) : Bool :=
  decide (1 ≤ c.bpThreshold) && decide (1 ≤ c.bpThrottleEvery)

/-- `NUM_TRANSFER_IDS` is a power of two, at most 32. -/
def Config.transferIdsOk (c : Config) : Bool := [1, 2, 4, 8, 16, 32].contains c.numTransferIds

def Config.dmacMapOk (c : Config) : Bool := offsetsLegal c.dmacMap.offsets

def Config.modemTxMapOk (c : Config) : Bool := offsetsLegal c.modemTxMap.offsets

def Config.modemRxMapOk (c : Config) : Bool := offsetsLegal (c.modemRxMap.offsets c.frCoefCount)

def Config.frCoefOk (c : Config) : Bool := decide (c.frCoefCount ≤ 4)

/-- Every timeout and deadline that R8 bounds below is at least 1. -/
def Config.timeoutsOk (c : Config) : Bool :=
  decide (1 ≤ c.dmaIrqTimeoutMs) && decide (1 ≤ c.rxFirstDeadlineMs) && decide (1 ≤ c.rxFrameDeadlineMs) &&
    decide (1 ≤ c.rxIrqTimeoutMs)

/-- `RX_LEN_INVALID` holds no legal length. DEDUCED (log 2): a legal length is one a frame in `RXBUF` can have,
`1 .. BUF_SIZE_RX`. -/
def Config.lenInvalidOk (c : Config) : Bool :=
  c.rxLenInvalid.all fun l => l == 0#32 || decide (c.bufSizeRx < l.toNat)

/-- `RX_FRAME_SZ_MAX`, `MIN_FRAME_SIZE` and `RXQ_DEPTH` are at least 1. -/
def Config.rxSizesOk (c : Config) : Bool :=
  decide (1 ≤ c.rxFrameSzMax) && decide (1 ≤ c.minFrameSize) && decide (1 ≤ c.rxqDepth)

/-- All constraints of R8: "a model must check the constraints ... and refuse a configuration that violates them". -/
def Config.wf (c : Config) : Bool :=
  [c.bufSizeOk .tx, c.bufSizeOk .rx, c.bufPhysOk .tx, c.bufPhysOk .rx, c.windowsOk, c.hostMemOk, c.resvPadOk, c.mtuOk,
   c.maxFrameOk, c.defaultMtuOk, c.backpressureOk, c.transferIdsOk, c.dmacMapOk, c.modemTxMapOk, c.modemRxMapOk,
   c.frCoefOk, c.timeoutsOk, c.lenInvalidOk, c.rxSizesOk].all id

/-- A command is well-formed in every value of its fields (R303: each defined bit may be 0 or 1). -/
def Instr.wf (_ : Instr) : Bool := true

end Sys2Proof
end

