-- ==== Sys2Proof/Decode.lean ====
section
/-! DEFINITION. Decoding and encoding of command words (R301 to R305, R310). Decoding is total: a word that
spells no command is rejected by name. -/

namespace Sys2Proof

/-- Why a word spells no command (R310). -/
inductive DecodeError where
  /-- the `UNIT` field is outside 0x01 to 0x05 -/
  | illegalUnit (unit : Nat)
  /-- the `OP` value is not listed for the unit -/
  | illegalOp (unit op : Nat)
  /-- a bit the format leaves undefined is 1 -/
  | reservedBits (w : U32)
deriving DecidableEq, Repr

/-- `UNIT`, bits 31:24 (R302). -/
def unitField (w : U32) : Nat := (w.extractLsb' 24 8).toNat

/-- `OP`, bits 23:16 (R302). -/
def opField (w : U32) : Nat := (w.extractLsb' 16 8).toNat

/-- `SPACE`, bits 9:8 (R302). -/
def spaceField (w : U32) : Space :=
  if w.getLsbD 9 then (if w.getLsbD 8 then .drx else .dtx) else (if w.getLsbD 8 then .mrx else .mtx)

/-- `ENG`, bit 8 (R302). -/
def engField (w : U32) : Engine := if w.getLsbD 8 then .rx else .tx

/-- `CYC`, bit 9 (R302). -/
def cycField (w : U32) : Bool := w.getLsbD 9

/-- `CNF`, bit 10 (R302). -/
def cnfField (w : U32) : Bool := w.getLsbD 10

/-- Accept the word when the bits its format leaves undefined are 0 (R303). -/
def withFormat (undefinedBits w : U32) (i : Instr) : Except DecodeError Instr :=
  if w &&& undefinedBits = 0#32 then .ok i else .error (.reservedBits w)

/-- Format FN: no field below `OP` (R303). -/
def formatN (w : U32) (i : Instr) : Except DecodeError Instr := withFormat 0x0000FFFF#32 w i

/-- Format FE: `ENG` (R303). -/
def formatE (w : U32) (k : Engine → Instr) : Except DecodeError Instr :=
  withFormat 0x0000FEFF#32 w (k (engField w))

/-- Format FW: `ENG`, `CYC`, `CNF` (R303). -/
def formatW (w : U32) (k : Engine → Bool → Bool → Instr) : Except DecodeError Instr :=
  withFormat 0x0000F8FF#32 w (k (engField w) (cycField w) (cnfField w))

/-- Format FS: `SPACE` (R303). -/
def formatS (w : U32) (k : Space → Instr) : Except DecodeError Instr :=
  withFormat 0x0000FCFF#32 w (k (spaceField w))

/-- The command a word spells (R305), or why it spells none (R310). -/
def decode (w : U32) : Except DecodeError Instr :=
  match unitField w, opField w with
  | 0x01, 0x01 => formatS w .regRead
  | 0x01, 0x02 => formatS w .regWrite
  | 0x01, 0x03 => formatS w .irqMask
  | 0x01, 0x04 => formatS w .irqUnmask
  | 0x01, 0x05 => formatS w .irqWait
  | 0x02, 0x01 => formatE w .dmaOpen
  | 0x02, 0x02 => formatW w .dmaWrite
  | 0x02, 0x03 => formatE w .dmaRead
  | 0x02, 0x04 => formatE w .dmaClose
  | 0x03, 0x01 => formatE w .codecEncode
  | 0x03, 0x02 => formatE w .codecDecode
  | 0x03, 0x03 => formatE w .codecCrc
  | 0x04, 0x01 => formatN w .txInit
  | 0x04, 0x02 => formatN w .txReset
  | 0x04, 0x03 => formatN w .txWrite
  | 0x04, 0x04 => formatN w .txClose
  | 0x04, 0x05 => formatN w .txSetMtu
  | 0x05, 0x01 => formatN w .rxInit
  | 0x05, 0x02 => formatN w .rxReset
  | 0x05, 0x03 => formatN w .rxStart
  | 0x05, 0x04 => formatN w .rxStop
  | 0x05, 0x05 => formatN w .rxReceive
  | 0x05, 0x06 => formatN w .rxRead
  | 0x05, 0x07 => formatN w .rxClose
  | u, o => if 1 ≤ u ∧ u ≤ 5 then .error (.illegalOp u o) else .error (.illegalUnit u)

/-- The command read from an instruction whose `nbits` low bits are those of `w`, every bit above them 0: one
32-bit command word (R301). -/
def decodeTableWord (nbits w : Nat) : Option Instr :=
  if w % 2 ^ nbits < 2 ^ 32 then (decode (u32 (w % 2 ^ nbits))).toOption else none

/-! ## Encoding, from the same table -/

def spaceBits : Space → U32
  | .mtx => 0x000#32
  | .mrx => 0x100#32
  | .dtx => 0x200#32
  | .drx => 0x300#32

def engBits : Engine → U32
  | .tx => 0x000#32
  | .rx => 0x100#32

def cycBits (b : Bool) : U32 := if b then 0x200#32 else 0#32

def cnfBits (b : Bool) : U32 := if b then 0x400#32 else 0#32

/-- The `match` column of R305. -/
def matchOf : Instr → U32
  | .regRead _ => 0x01010000#32
  | .regWrite _ => 0x01020000#32
  | .irqMask _ => 0x01030000#32
  | .irqUnmask _ => 0x01040000#32
  | .irqWait _ => 0x01050000#32
  | .dmaOpen _ => 0x02010000#32
  | .dmaWrite _ _ _ => 0x02020000#32
  | .dmaRead _ => 0x02030000#32
  | .dmaClose _ => 0x02040000#32
  | .codecEncode _ => 0x03010000#32
  | .codecDecode _ => 0x03020000#32
  | .codecCrc _ => 0x03030000#32
  | .txInit => 0x04010000#32
  | .txReset => 0x04020000#32
  | .txWrite => 0x04030000#32
  | .txClose => 0x04040000#32
  | .txSetMtu => 0x04050000#32
  | .rxInit => 0x05010000#32
  | .rxReset => 0x05020000#32
  | .rxStart => 0x05030000#32
  | .rxStop => 0x05040000#32
  | .rxReceive => 0x05050000#32
  | .rxRead => 0x05060000#32
  | .rxClose => 0x05070000#32

/-- The `mask` column of R305. -/
def maskOf : Instr → U32
  | .regRead _ | .regWrite _ | .irqMask _ | .irqUnmask _ | .irqWait _ => 0xFFFFFCFF#32
  | .dmaWrite _ _ _ => 0xFFFFF8FF#32
  | .dmaOpen _ | .dmaRead _ | .dmaClose _ | .codecEncode _ | .codecDecode _ | .codecCrc _ => 0xFFFFFEFF#32
  | .txInit | .txReset | .txWrite | .txClose | .txSetMtu => 0xFFFFFFFF#32
  | .rxInit | .rxReset | .rxStart | .rxStop | .rxReceive | .rxRead | .rxClose => 0xFFFFFFFF#32

/-- The field bits of a command's word (R302). -/
def fieldBits : Instr → U32
  | .regRead sp | .regWrite sp | .irqMask sp | .irqUnmask sp | .irqWait sp => spaceBits sp
  | .dmaWrite e cyc cnf => engBits e ||| cycBits cyc ||| cnfBits cnf
  | .dmaOpen e | .dmaRead e | .dmaClose e | .codecEncode e | .codecDecode e | .codecCrc e => engBits e
  | .txInit | .txReset | .txWrite | .txClose | .txSetMtu => 0#32
  | .rxInit | .rxReset | .rxStart | .rxStop | .rxReceive | .rxRead | .rxClose => 0#32

/-- The word of a command (R303, R305). -/
def encode (i : Instr) : U32 := matchOf i ||| fieldBits i

end Sys2Proof
end

