-- ==== Sys2Proof/Machine/State.lean ====
section
/-! DEFINITION. Every piece of state the spec gives the block (10_state.md), as plain data; the two ways a step can
stop; and the state right after reset (R1001). -/

namespace Sys2Proof.Machine

/-- A byte space as (address, byte) pairs with strictly rising addresses. An address that is not listed has not
been written since reset: what it reads as is a free draw (R111, R1001), supplied by the operation that reads. -/
abbrev Memory := List Host.Cell

/-- The same form for a table of other values: the Frame Offset Table and the verdicts (R161). -/
abbrev Sparse (α : Type) := List (Nat × α)

/-- The canonical form: addresses strictly rising. No entry can equal what an unlisted address holds, because an
unlisted address holds no value. -/
abbrev Sparse.wf {α : Type} (m : Sparse α) : Prop := m.Pairwise fun x y => x.1 < y.1

/-- The canonical form of a byte space. -/
abbrev Memory.wf (m : Memory) : Prop := Sparse.wf m

/-- Every listed address exists: it is below the size of the space (R201, R206). -/
abbrev Memory.within (m : Memory) (size : Nat) : Prop := ∀ c ∈ m, c.1 < size

/-! ## Host interface registers (R101 to R103) -/

/-- `ARG[c][0..7]`, and the copy latched at issue (R102). -/
structure Operands where
  a0 : U32 := 0#32
  a1 : U32 := 0#32
  a2 : U32 := 0#32
  a3 : U32 := 0#32
  a4 : U32 := 0#32
  a5 : U32 := 0#32
  a6 : U32 := 0#32
  a7 : U32 := 0#32
deriving DecidableEq, Repr

/-- `RES[c][0..9]`. -/
structure Results where
  r0 : U32 := 0#32
  r1 : U32 := 0#32
  r2 : U32 := 0#32
  r3 : U32 := 0#32
  r4 : U32 := 0#32
  r5 : U32 := 0#32
  r6 : U32 := 0#32
  r7 : U32 := 0#32
  r8 : U32 := 0#32
  r9 : U32 := 0#32
deriving DecidableEq, Repr

/-- The status codes of R901, by name. `eTimeout` is reserved: no rule produces it (R511). -/
inductive Status where
  | ok
  | eSize
  | eResource
  | eMap
  | eTimeout
  | eBus
  | eNotOpen
  | eBusy
  | eIllegal
  | ePacketTooLarge
  | rxTimeout
  | rxInvalidGuid
  | rxPackSzZero
  | rxNumFramesZero
  | rxFrameSzZero
  | rxFrameSzTooLarge
  | rxMtuZero
  | rxFrameInvalid
  | rxOverflow
  | rxIrqError
  | rxNotConfigured
deriving DecidableEq, Repr

/-- The frame header of R320. -/
structure Hdr where
  ident : U32
  packId : U32
  packSz : U32
  frameId : U32
  numFrames : U32
  mtu : U32
  frameSz : U32
  crc : U16
  crc2 : U16
deriving DecidableEq, Repr

/-- The CRC verdicts of R605 (0 to 3 in this order). -/
inductive Verdict where
  | verified
  | mismatch
  | unverifiable
  | notCopied
deriving DecidableEq, Repr

/-- The two transfer phases a DMA procedure waits for: bit 0 and bit 1 of `IRQ_PENDING` (R131, R509). -/
inductive Phase where
  | sot
  | eot
deriving DecidableEq, Repr

/-- The step labels of `DmaWrite` and `DmaRead` (R505, R507): `d1` is DW1/DR1, …, `d12` is DW12/DR12; `wp1` to `wp5`
are those of `WaitPhase` (R509), `pd1` that of `PollDone` (R510), and `back` the line that returns
(DW13, DW15 or DW18; DR16). The lines that only branch are merged into the next shared step (R14). -/
inductive DmaLabel where
  | d1 | d2 | d3 | d4 | d5 | d6 | d7 | d8 | d9 | d10 | d11 | d12
  | wp1 | wp2 | wp3 | wp4 | wp5
  | pd1
  | back
deriving DecidableEq, Repr

/-- The locals of `DmaWrite`, `DmaRead` and `WaitPhase`. -/
structure DmaLocals where
  off : Nat := 0
  size : U32 := 0#32
  cyc : Bool := false
  cnf : Bool := false
  id : U32 := 0#32
  phase : Phase := .sot
  eotSeen : Bool := false
  pend : U32 := 0#32
  t0 : Nat := 0
deriving DecidableEq, Repr

/-- The step labels of the command procedures (R103, R19), one group per command:
`dcl` DMA.CLOSE, `enc`, `dec` and `crc` the CODEC commands, `tr` TX.RESET, `tw`, `ts` and `tb` TX.WRITE (R720),
`tcl` TX.CLOSE, `rr` RX.RESET, `rp` RX.STOP, `rv` RX.RECEIVE, `rd` RX.READ, `rc` RX.CLOSE. -/
inductive Label where
  | idle
  | regRead | regWrite | irqMask | irqUnmask | irqWait
  | dmaOpen
  | dma (l : DmaLabel)
  | dcl1 | dcl2
  | enc1 | enc2
  | dec1 | dec2
  | crc1
  | txInit
  | tr1 | tr2 | tr3 | tr4
  | tw1 | tw2
  | tsEnc
  | tsFlush (l : DmaLabel)
  | tbEnc
  | tbFlush (l : DmaLabel)
  | tbThr | tbPause
  | tbEob
  | tbEobf (l : DmaLabel)
  | twDone
  | tcl1 | tcl2
  | txSetMtu
  | rxInit
  | rr1 | rr2 | rr3 | rr4 | rr5 | rr6 | rr7 | rr8 | rr9 | rr10 | rr11 | rr12
  | rxStart
  | rp1 | rp2
  | rv1 | rv2 | rv3 | rv4 | rv5 | rv6 | rv7 | rv8 | rv9 | rv10
  | rd1 | rd2 | rd3 | rd4 | rd5
  | rc1 | rc2 | rc3 | rc4 | rc5 | rc6 | rc7
deriving DecidableEq, Repr

/-- The locals of the command procedures (R103): they mean something only while a procedure that declares them
runs. `dma` those of the DMA procedures; `t0` the start of the wait of IRQ.WAIT or of a pause; `payload` and
`hdr` of the CODEC commands; `i` to `tEnd` of TX.WRITE (R720); `k` of RX.RESET; `deadline` and `c0` of
RX.RECEIVE; `cur` to `j` of RX.READ. -/
structure Locals where
  dma : DmaLocals := {}
  t0 : Nat := 0
  payload : List Byte := []
  hdr : Hdr := ⟨0#32, 0#32, 0#32, 0#32, 0#32, 0#32, 0#32, 0#16, 0#16⟩
  i : Nat := 0
  off : Nat := 0
  n : Nat := 0
  m : Nat := 0
  nf : Nat := 0
  pid : U32 := 0#32
  tEnd : Nat := 0
  k : Nat := 0
  deadline : Nat := 0
  c0 : U32 := 0#32
  cur : Nat := 0
  valid : Nat := 0
  total : Nat := 0
  j : Nat := 0
deriving DecidableEq, Repr

/-- A command channel (R101, R102, R103). -/
structure Chan where
  arg : Operands := {}
  cmd : U32 := 0#32
  busy : Bool := false
  status : U32 := 0#32
  res : Results := {}
  pc : Label := .idle
  opd : Operands := {}
  loc : Locals := {}
deriving DecidableEq, Repr

/-! ## DMA controllers, IP cores, interrupt lines (R130 to R150) -/

/-- A record of a DMA controller's transfer queue (R132, R541). The three shape numbers are those of the submit. -/
structure DmaRec where
  id : U32
  addr : Nat
  rows : Nat
  rowLen : Nat
  stride : Nat
  cyclic : Bool
  started : Bool
deriving DecidableEq, Repr

/-- A DMA controller: the registers of R131 (`TRANSFER_SUBMIT` stores nothing) and the queue `DQ[e]` of R132. -/
structure Dmac where
  irqMask : U32 := 0x3#32
  irqPending : U32 := 0#32
  control : U32 := 0#32
  transferId : U32 := 0#32
  flags : U32 := 0#32
  destAddress : U32 := 0#32
  srcAddress : U32 := 0#32
  xLength : U32 := 0#32
  yLength : U32 := 0#32
  destStride : U32 := 0#32
  srcStride : U32 := 0#32
  transferDone : U32 := 0#32
  queue : List DmaRec := []
deriving DecidableEq, Repr

/-- The TX IP core's registers (R140). -/
structure ModemTx where
  reset : U32 := 0#32
  txSrcSel : U32 := 0#32
deriving DecidableEq, Repr

/-- The RX IP core's registers (R141) and its queue `RXQ` of entries (reported length, frame bytes) (R142). -/
structure ModemRx where
  reset : U32 := 0#32
  rxEnable : U32 := 0#32
  loopBw : U32 := 0#32
  eqGain : U32 := 0#32
  bypassCoding : U32 := 0#32
  bypassEq : U32 := 0#32
  detThresh : U32 := 0#32
  frCoef0 : U32 := 0#32
  frCoef1 : U32 := 0#32
  frCoef2 : U32 := 0#32
  frCoef3 : U32 := 0#32
  rxq : List (U32 × List Byte) := []
deriving DecidableEq, Repr

/-- The two state bits of an interrupt line (R150). -/
structure Line where
  masked : Bool := true
  latched : Bool := false
deriving DecidableEq, Repr

/-- One line per register space (R150). -/
structure Lines where
  mtx : Line := {}
  mrx : Line := {}
  dtx : Line := {}
  drx : Line := {}
deriving DecidableEq, Repr

/-- The registers of a DMA controller, by their spec names (R131). -/
inductive DReg where
  | irqMask
  | irqPending
  | control
  | transferId
  | transferSubmit
  | flags
  | destAddress
  | srcAddress
  | xLength
  | yLength
  | destStride
  | srcStride
  | transferDone
deriving DecidableEq, Repr

/-- The registers of the TX IP core (R140). -/
inductive TReg where
  | reset
  | txSrcSel
deriving DecidableEq, Repr

/-- The registers of the RX IP core (R141). -/
inductive RReg where
  | reset
  | rxEnable
  | loopBw
  | eqGain
  | bypassCoding
  | bypassEq
  | detThresh
  | payloadLen
  | frCoef (k : Fin 4)
deriving DecidableEq, Repr

/-- A register of one of the four spaces (R12, R401). -/
inductive Reg where
  | dmac (e : Engine) (r : DReg)
  | mtx (r : TReg)
  | mrx (r : RReg)
deriving DecidableEq, Repr

/-! ## RX Reassembler and worker (R161, R830) -/

/-- `rx_state` (R161, R860). -/
inductive RxPhase where
  | idle
  | arming
  | receiving
  | complete
  | timedOut
  | failed
deriving DecidableEq, Repr

/-- The RX Reassembler's shared state (R161). -/
structure Reassembler where
  inited : Bool := false
  state : RxPhase := .idle
  configured : Bool := false
  count : U32 := 0#32
  table : Sparse U32 := []
  nextOff : Nat := 0
  workerRet : U32 := 0#32
  done : Bool := true
  tmoCount : Nat := 0
  hdr0 : Hdr
  crcStatus : Sparse Verdict := []
deriving DecidableEq, Repr

/-- What an interrupt wait returns (R407). -/
inductive IrqResult where
  | pending
  | none
  | error
deriving DecidableEq, Repr

/-- `pc[RXW]` (R830). -/
inductive WLabel where
  | dead
  | w1 | w2 | w3 | w4 | w5 | w6
  | w7 (l : DmaLabel)
  | w8
  | wx
deriving DecidableEq, Repr

/-- The RX interrupt worker: its label and its locals `r`, `L`, `o` and those of its DMA read (R830). -/
structure Worker where
  pc : WLabel := .dead
  r : IrqResult := .none
  len : U32 := 0#32
  off : Nat := 0
  t0 : Nat := 0
  dma : DmaLocals := {}
deriving DecidableEq, Repr

/-! ## Observation -/

/-- The events of `LOG` (R170). -/
inductive Event where
  | txStream (bytes : List Byte) (cyclic : Bool)
  | crcEvent (index : Nat) (verdict : Verdict)
  | throttlePause (frame : Nat)
deriving DecidableEq, Repr

/-- What the host's last read returned (R17). The model's own: the value leaves the block. -/
inductive HostData where
  | nothing
  | word (v : U32)
  | bytes (bs : List Byte)
deriving DecidableEq, Repr

/-! ## The state -/

/-- The machine. The last six fields are the model's own: `script` the moves that come next, `pick` the free choice
of the move being made, `draws` the number of free values drawn so far, `epoch` the number of the last reset,
`hostGot` what the host's last read returned, and `cfg` the configuration, which no step changes. -/
structure State where
  chTx : Chan := {}
  chRx : Chan := {}
  chBus : Chan := {}
  issueStatus : U32 := 0#32
  openTx : Bool := false
  openRx : Bool := false
  bufTx : Memory := []
  bufRx : Memory := []
  hostMem : Memory := []
  dtx : Dmac := {}
  drx : Dmac := {}
  mtx : ModemTx := {}
  mrx : ModemRx := {}
  lines : Lines := {}
  txInited : Bool := false
  cfgMtu : U32 := 0#32
  packId : U32 := 0#32
  rx : Reassembler
  worker : Worker := {}
  timeMs : Nat := 0
  log : List Event := []
  faultDmaWild : Bool := false
  faultBufRace : Bool := false
  cfg : Config
  script : List Move := []
  pick : Pick := .wake
  draws : Nat := 0
  epoch : Nat := 0
  hostGot : HostData := .nothing
deriving DecidableEq, Repr

/-! ## How a step can stop -/

/-- Why the machine stops. Neither can happen to a command that the host issued to an idle channel. -/
inductive Fault where
  /-- Raised when a channel is made to step at a label its command's procedure does not have, or with a `CMD` that
  decodes to no command of the channel: "a label outside the procedure text does not exist" (R19). No run from
  reset reaches it. Safe: the model stops where the spec has no behaviour. -/
  | strayLabel
  /-- Raised when the host reads or writes `HOSTMEM` past its size: such an address does not exist (R11, R201).
  Safe: the model stops where the spec has no behaviour. -/
  | hostMemRange
deriving DecidableEq, Repr

/-- What the model has no meaning for. -/
inductive Refusal where
  /-- A command without a meaning, by its mnemonic; no arm raises it. Safe. -/
  | notModelled (mnemonic : String)
  /-- The configuration violates a constraint of R8, which the model "must check ... and refuse". Safe. -/
  | badConfig
deriving DecidableEq, Repr

/-- What a step answers. -/
abbrev Result := Host.Outcome State Fault Refusal

/-! ## Reset (R1001) -/

/-- `hdr0` after reset: a free draw (R161). -/
def resetHdr0 (epoch : Nat) : Hdr where
  ident := Config.resetHdr0 epoch 0
  packId := Config.resetHdr0 epoch 1
  packSz := Config.resetHdr0 epoch 2
  frameId := Config.resetHdr0 epoch 3
  numFrames := Config.resetHdr0 epoch 4
  mtu := Config.resetHdr0 epoch 5
  frameSz := Config.resetHdr0 epoch 6
  crc := (Config.resetHdr0 epoch 7).setWidth 16
  crc2 := (Config.resetHdr0 epoch 8).setWidth 16

/-- The machine right after reset number `epoch` under a configuration: every field at the value R1001 states;
the fields of the structures above carry those values as their defaults. -/
def State.resetOf (c : Config) (epoch : Nat) : State :=
  { rx := { hdr0 := resetHdr0 epoch }, cfg := c, epoch := epoch }

/-- The machine right after its first reset, under the configuration of log 1. -/
def State.reset : State := State.resetOf Config.initial 0

end Sys2Proof.Machine
end

