-- ==== Sys2Proof/Machine/Operands.lean ====
section
/-! DEFINITION. Operand forms: argument and result registers, the signed reading of an operand, the register an
offset names, and the exact frame arithmetic (R23, R304, R404, R602, R710 to R713, R835). -/

namespace Sys2Proof.Machine

/-! ## Argument and result registers (R101, R102) -/

/-- `a_i` (R304). -/
def Operands.get (a : Operands) (i : Fin 8) : U32 :=
  match i with
  | 0 => a.a0
  | 1 => a.a1
  | 2 => a.a2
  | 3 => a.a3
  | 4 => a.a4
  | 5 => a.a5
  | 6 => a.a6
  | 7 => a.a7

/-- `ARG[c][i] <- v` (R17). -/
def Operands.set (a : Operands) (i : Fin 8) (v : U32) : Operands :=
  match i with
  | 0 => { a with a0 := v }
  | 1 => { a with a1 := v }
  | 2 => { a with a2 := v }
  | 3 => { a with a3 := v }
  | 4 => { a with a4 := v }
  | 5 => { a with a5 := v }
  | 6 => { a with a6 := v }
  | 7 => { a with a7 := v }

/-- `RES[c][i]`. -/
def Results.get (r : Results) (i : Fin 10) : U32 :=
  match i with
  | 0 => r.r0
  | 1 => r.r1
  | 2 => r.r2
  | 3 => r.r3
  | 4 => r.r4
  | 5 => r.r5
  | 6 => r.r6
  | 7 => r.r7
  | 8 => r.r8
  | 9 => r.r9

/-- The result registers a `finish` names are set, the others keep their values (R13, R102). -/
def Results.put (r : Results) (vs : List U32) : Results where
  r0 := vs.getD 0 r.r0
  r1 := vs.getD 1 r.r1
  r2 := vs.getD 2 r.r2
  r3 := vs.getD 3 r.r3
  r4 := vs.getD 4 r.r4
  r5 := vs.getD 5 r.r5
  r6 := vs.getD 6 r.r6
  r7 := vs.getD 7 r.r7
  r8 := vs.getD 8 r.r8
  r9 := vs.getD 9 r.r9

/-- `s32(w)`: the word as two's complement (R9). -/
def s32 (w : U32) : Int := w.toInt

/-- A result register that shows a one-bit fact. -/
def bitWord (b : Bool) : U32 := if b then 1#32 else 0#32

/-! ## Which register an offset names (R131, R140, R141, R404) -/

def dmacTable (m : DmacMap) (e : Engine) : List (U32 × Reg) :=
  [(m.irqMask, .dmac e .irqMask), (m.irqPending, .dmac e .irqPending), (m.control, .dmac e .control),
   (m.transferId, .dmac e .transferId), (m.transferSubmit, .dmac e .transferSubmit), (m.flags, .dmac e .flags),
   (m.destAddress, .dmac e .destAddress), (m.srcAddress, .dmac e .srcAddress), (m.xLength, .dmac e .xLength),
   (m.yLength, .dmac e .yLength), (m.destStride, .dmac e .destStride), (m.srcStride, .dmac e .srcStride),
   (m.transferDone, .dmac e .transferDone)]

def modemTxTable (m : ModemTxMap) : List (U32 × Reg) :=
  [(m.reset, .mtx .reset), (m.txSrcSel, .mtx .txSrcSel)]

/-- `FR_COEF[k]` exists for `k < FR_COEF_COUNT` (R141). -/
def modemRxTable (m : ModemRxMap) (frCoefCount : Nat) : List (U32 × Reg) :=
  [(m.reset, .mrx .reset), (m.rxEnable, .mrx .rxEnable), (m.loopBw, .mrx .loopBw), (m.eqGain, .mrx .eqGain),
   (m.bypassCoding, .mrx .bypassCoding), (m.bypassEq, .mrx .bypassEq), (m.detThresh, .mrx .detThresh),
   (m.payloadLen, .mrx .payloadLen)]
  ++ [(m.frCoef0, Reg.mrx (.frCoef 0)), (m.frCoef1, .mrx (.frCoef 1)), (m.frCoef2, .mrx (.frCoef 2)),
      (m.frCoef3, .mrx (.frCoef 3))].take frCoefCount

/-- The register map of a space. -/
def regTable (c : Config) : Space → List (U32 × Reg)
  | .mtx => modemTxTable c.modemTxMap
  | .mrx => modemRxTable c.modemRxMap c.frCoefCount
  | .dtx => dmacTable c.dmacMap .tx
  | .drx => dmacTable c.dmacMap .rx

/-- The register at an offset of a space; none when the access is unmapped (R404). -/
def regAt (c : Config) (sp : Space) (off : U32) : Option Reg :=
  if off.toNat % 4 = 0 then ((regTable c sp).find? fun p => p.1 == off).map Prod.snd else none

/-! ## Frame arithmetic, exact (R23) -/

/-- `fp(fs) = HDR_SIZE + pad8(fs) + RESV_PAD` (R602). -/
def footprint (c : Config) (fs : Nat) : Nat := hdrSize + pad8 fs + c.resvPad

/-- `Norm(c)` (R710). -/
def normMtu (c : Config) (mtu : U32) : Nat :=
  if mtu ≠ 0#32 ∧ c.minMtu ≤ mtu.toNat ∧ mtu.toNat ≤ c.maxMtu then rd8 mtu.toNat else c.defaultMtu

/-- Payload size of frame `i` of a packet of `n` bytes in `nf` frames at MTU `m` (R713). -/
def frameSize (n m nf i : Nat) : Nat := if i + 1 < nf then m else n - m * (nf - 1)

/-- The packet does not fit (R711). -/
def packetTooLarge (c : Config) (n m : Nat) : Bool := decide (c.bufSizeTx ≤ ceilDiv n m * footprint c m)

/-- `Adv(L, k)` (R835). -/
def advance (c : Config) (len k : Nat) : Nat :=
  match c.rxAdvance with
  | .rev2 => len + (k - 1) + 4
  | .plain => len

/-- A reported length the worker refuses (R832). -/
def lenInvalid (c : Config) (len : U32) : Bool := len == 0#32 || c.rxLenInvalid.contains len

/-- The size check shared by both DMA directions (R504): it passes. -/
def dmaSizeOk (c : Config) (e : Engine) (off : Nat) (size : U32) : Bool :=
  decide (0 ≤ s32 size) && decide ((off : Int) + s32 size ≤ (c.bufSize e : Int))

end Sys2Proof.Machine
end

