-- ==== Sys2Proof/Machine/Flags.lean ====
section
/-! DEFINITION. Every flag of the block (R180): the numbers of the status codes and verdicts, the bits of the
controller registers, the interrupt lines with their latch rule (R150, R405 to R408, R930), and the timeout
condition of a wait (R20). -/

namespace Sys2Proof.Machine

/-! ## Codes -/

/-- The number of a status code, as two's complement (R901). -/
def Status.code : Status → U32
  | .ok => 0#32
  | .eSize => BitVec.ofInt 32 (-1)
  | .eResource => BitVec.ofInt 32 (-2)
  | .eMap => BitVec.ofInt 32 (-3)
  | .eTimeout => BitVec.ofInt 32 (-4)
  | .eBus => BitVec.ofInt 32 (-5)
  | .eNotOpen => BitVec.ofInt 32 (-6)
  | .eBusy => BitVec.ofInt 32 (-7)
  | .eIllegal => BitVec.ofInt 32 (-8)
  | .ePacketTooLarge => BitVec.ofInt 32 (-9)
  | .rxTimeout => BitVec.ofInt 32 (-16)
  | .rxInvalidGuid => BitVec.ofInt 32 (-17)
  | .rxPackSzZero => BitVec.ofInt 32 (-18)
  | .rxNumFramesZero => BitVec.ofInt 32 (-19)
  | .rxFrameSzZero => BitVec.ofInt 32 (-20)
  | .rxFrameSzTooLarge => BitVec.ofInt 32 (-21)
  | .rxMtuZero => BitVec.ofInt 32 (-22)
  | .rxFrameInvalid => BitVec.ofInt 32 (-23)
  | .rxOverflow => BitVec.ofInt 32 (-24)
  | .rxIrqError => BitVec.ofInt 32 (-25)
  | .rxNotConfigured => BitVec.ofInt 32 (-26)

/-- The number of a verdict (R605). -/
def Verdict.code : Verdict → U32
  | .verified => 0#32
  | .mismatch => 1#32
  | .unverifiable => 2#32
  | .notCopied => 3#32

/-- The verdict with a number, read modulo 4. -/
def verdictOfNat (n : Nat) : Verdict :=
  match n % 4 with
  | 0 => .verified
  | 1 => .mismatch
  | 2 => .unverifiable
  | _ => .notCopied

/-! ## Register bits -/

/-- Bit `i` alone, as in `IRQ_PENDING[i]` and `TRANSFER_DONE[i]`. -/
def bitMask (i : Nat) : U32 := 1#32 <<< i

/-- `r[i] <- 1`. -/
def setBit (r : U32) (i : Nat) : U32 := r ||| bitMask i

/-- `r[i] <- 0`. -/
def clearBit (r : U32) (i : Nat) : U32 := r &&& ~~~ bitMask i

/-- The bit of `IRQ_MASK` and `IRQ_PENDING` a phase has (R131). -/
def Phase.bit : Phase → Nat
  | .sot => 0
  | .eot => 1

/-- Signal a phase: its pending bit is set unless the controller masks it (R542, R543, R546). -/
def Dmac.signal (d : Dmac) (ph : Phase) : Dmac :=
  if d.irqMask.getLsbD ph.bit then d else { d with irqPending := setBit d.irqPending ph.bit }

/-- `CONTROL.ENABLE` (R131). -/
def Dmac.enabled (d : Dmac) : Bool := d.control.getLsbD 0

/-! ## State parts by name -/

/-- The state of a channel. -/
def State.chan (s : State) : Channel → Chan
  | .tx => s.chTx
  | .rx => s.chRx
  | .bus => s.chBus

def State.setChan (s : State) (c : Channel) (x : Chan) : State :=
  match c with
  | .tx => { s with chTx := x }
  | .rx => { s with chRx := x }
  | .bus => { s with chBus := x }

/-- The DMA controller of an engine. -/
def State.dmac (s : State) : Engine → Dmac
  | .tx => s.dtx
  | .rx => s.drx

def State.setDmac (s : State) (e : Engine) (d : Dmac) : State :=
  match e with
  | .tx => { s with dtx := d }
  | .rx => { s with drx := d }

/-- An interrupt line. -/
def Lines.get (l : Lines) : Space → Line
  | .mtx => l.mtx
  | .mrx => l.mrx
  | .dtx => l.dtx
  | .drx => l.drx

def Lines.set (l : Lines) (sp : Space) (x : Line) : Lines :=
  match sp with
  | .mtx => { l with mtx := x }
  | .mrx => { l with mrx := x }
  | .dtx => { l with dtx := x }
  | .drx => { l with drx := x }

def State.line (s : State) (sp : Space) : Line := s.lines.get sp

def State.setLine (s : State) (sp : Space) (x : Line) : State := { s with lines := s.lines.set sp x }

/-- `open[e]` (R110). -/
def State.isOpen (s : State) : Engine → Bool
  | .tx => s.openTx
  | .rx => s.openRx

def State.setOpen (s : State) (e : Engine) (b : Bool) : State :=
  match e with
  | .tx => { s with openTx := b }
  | .rx => { s with openRx := b }

/-- `worker_alive` (R161). -/
def State.workerAlive (s : State) : Bool := decide (s.worker.pc ≠ .dead)

/-! ## Interrupt lines -/

/-- The source level of a line (R150). -/
def State.level (s : State) : Space → Bool
  | .mtx => false
  | .mrx => s.mrx.rxEnable.getLsbD 0 && !s.mrx.reset.getLsbD 0 && !s.mrx.rxq.isEmpty
  | .dtx => decide (s.dtx.irqPending ≠ 0#32)
  | .drx => decide (s.drx.irqPending ≠ 0#32)

/-- A line after the latch rule, given its level: a high level on an unmasked line latches and masks (R408). -/
def Line.latch (l : Line) (level : Bool) : Line :=
  if level && !l.masked then { masked := true, latched := true } else l

/-- The latch rule for every line (R408). -/
def State.latch (s : State) : State :=
  { s with lines :=
    { mtx := s.lines.mtx.latch (s.level .mtx)
      mrx := s.lines.mrx.latch (s.level .mrx)
      dtx := s.lines.dtx.latch (s.level .dtx)
      drx := s.lines.drx.latch (s.level .drx) } }

/-- `IrqMask(l)` (R405). -/
def State.irqMask (s : State) (sp : Space) : State := s.setLine sp { masked := true, latched := false }

/-- `IrqUnmask(l)` (R406). -/
def State.irqUnmask (s : State) (sp : Space) : State :=
  (s.setLine sp { s.line sp with masked := false }).latch

/-! ## Waits -/

/-- The timeout of a wait whose deadline is `deadline` may fire (R20): the clock has reached it, or time is abstract
and the predicate is false. DEDUCED (log 3): where both hold at once either completion may be chosen (R407, R932). -/
def State.expired (s : State) (deadline : Nat) (predicate : Bool) : Bool :=
  decide (deadline ≤ s.timeMs) || (s.cfg.timeAbstract && !predicate)

/-- `IrqWait(l, T)` begun at `t0` (R407), under the pick of the move: its result and the state after its
completion step, or none while that completion is not enabled. -/
def State.irqWait (s : State) (sp : Space) (t0 timeout : Nat) : Option (IrqResult × State) :=
  match s.pick with
  | .wake =>
    if (s.line sp).latched then some (.pending, s.setLine sp { s.line sp with latched := false }) else none
  | .expire => if s.expired (t0 + timeout) (s.line sp).latched then some (.none, s) else none
  | .fail => if s.cfg.busMayFail then some (.error, s) else none

end Sys2Proof.Machine
end

