-- ==== Sys2Proof/Machine/Ops.lean ====
section
/-! DEFINITION. The named operations every meaning is made of: the byte spaces (R11, R111, R206, R212), the register
bus (R402, R403, R541, R545), and the life of a command: issue, goto, finish, raise (R13, R18). The block has no
traps (R940): `raise` and the worker's `fatal` are all there is of taking an exception, and nothing returns
from one (R941). -/

namespace Sys2Proof.Machine

/-! ## Sparse tables and byte spaces -/

/-- What is listed at an address. -/
def Sparse.get? {α : Type} (m : Sparse α) (a : Nat) : Option α := (m.find? fun c => c.1 == a).map Prod.snd

/-- The values `vs` listed at `a, a + 1, …`. -/
def Sparse.run {α : Type} (a : Nat) (vs : List α) : Sparse α :=
  match vs with
  | [] => []
  | v :: vs => (a, v) :: Sparse.run (a + 1) vs

/-- Replace the values at `a .. a + len − 1` (R11 `MemWrite`); the result is in canonical form. -/
def Sparse.write {α : Type} (m : Sparse α) (a : Nat) (vs : List α) : Sparse α :=
  m.filter (fun c => decide (c.1 < a)) ++ Sparse.run a vs ++ m.filter (fun c => decide (a + vs.length ≤ c.1))

/-- The bytes of a space. -/
def State.space (s : State) : ByteSpace → Memory
  | .buf .tx => s.bufTx
  | .buf .rx => s.bufRx
  | .hostMem => s.hostMem

def State.setSpace (s : State) (sp : ByteSpace) (m : Memory) : State :=
  match sp with
  | .buf .tx => { s with bufTx := m }
  | .buf .rx => { s with bufRx := m }
  | .hostMem => { s with hostMem := m }

/-- The byte size of a space (R201). -/
def spaceSize (c : Config) : ByteSpace → Nat
  | .buf e => c.bufSize e
  | .hostMem => c.hostMemSize

/-- One byte of a space: the one written last, or the free draw of the last reset (R111, R1001). -/
def State.byteAt (s : State) (sp : ByteSpace) (a : Nat) : Byte :=
  (Sparse.get? (s.space sp) a).getD (Config.resetByte s.epoch sp a)

/-- `MemRead(space, addr, n)` (R11). Every caller has checked the bounds (R206). -/
def State.readMem (s : State) (sp : ByteSpace) (a n : Nat) : List Byte :=
  (List.range n).map fun k => s.byteAt sp (a + k)

/-- `MemWrite(space, addr, n, b)` (R11). Every caller has checked the bounds (R206). -/
def State.writeMem (s : State) (sp : ByteSpace) (a : Nat) (bs : List Byte) : State :=
  s.setSpace sp (Sparse.write (s.space sp) a bs)

/-- The Frame Offset Table entry `j` (R161). -/
def State.tableAt (s : State) (j : Nat) : U32 := (s.rx.table.get? j).getD (Config.resetTable s.epoch j)

/-- `crc_status[j]` (R161). -/
def State.crcStatusAt (s : State) (j : Nat) : Verdict :=
  (s.rx.crcStatus.get? j).getD (verdictOfNat (Config.resetVerdict s.epoch j))

/-! ## Transfers in flight and buffer races (R202, R212) -/

/-- The physical byte ranges of a record, as (first address, length), row by row (R543). -/
def DmaRec.ranges (r : DmaRec) : List (Nat × Nat) :=
  (List.range r.rows).map fun k => (r.addr + k * r.stride, r.rowLen)

/-- `len = rows × row length` (R541). -/
def DmaRec.len (r : DmaRec) : Nat := r.rows * r.rowLen

/-- Every row lies wholly inside the window of the engine's buffer (R202). -/
def DmaRec.inside (c : Config) (e : Engine) (r : DmaRec) : Bool :=
  r.ranges.all fun x => decide (c.bufPhys e ≤ x.1) && decide (x.1 + x.2 ≤ c.bufPhys e + c.bufSize e)

/-- Some row of the record overlaps the `n` bytes at buffer offset `o`. -/
def DmaRec.overlaps (c : Config) (e : Engine) (r : DmaRec) (o n : Nat) : Bool :=
  r.ranges.any fun x =>
    decide (x.1 < c.bufPhys e + o + n) && decide (c.bufPhys e + o < x.1 + x.2) && decide (0 < n) && decide (0 < x.2)

/-- A transfer of the engine in its queue overlaps the range (R212). -/
def State.raced (s : State) (e : Engine) (o n : Nat) : Bool :=
  (s.dmac e).queue.any fun r => r.overlaps s.cfg e o n

/-- Set `FAULT_BUF_RACE` if the condition holds; it is never cleared (R212, R920). -/
def State.noteRace (s : State) (b : Bool) : State := { s with faultBufRace := s.faultBufRace || b }

/-- A channel's or the worker's `MemWrite` to a buffer: a race sets the sticky fault and the write proceeds (R212). -/
def State.bufWrite (s : State) (e : Engine) (o : Nat) (bs : List Byte) : State :=
  (s.noteRace (s.raced e o bs.length)).writeMem (.buf e) o bs

/-- What a channel's or the worker's `MemRead` of a buffer leaves: only a memory-destination transfer, one of engine
RX, can race with a read (R212). -/
def State.bufReadNote (s : State) (e : Engine) (o n : Nat) : State :=
  match e with
  | .tx => s
  | .rx => s.noteRace (s.raced .rx o n)

/-! ## The register bus (R402, R403) -/

/-- The value of `PAYLOAD_LEN` (R402, R850). -/
def ModemRx.payloadLen (m : ModemRx) : U32 :=
  match m.rxq with
  | [] => 0#32
  | (len, _) :: _ => len

def Dmac.read (d : Dmac) : DReg → U32
  | .irqMask => d.irqMask
  | .irqPending => d.irqPending
  | .control => d.control
  | .transferId => d.transferId
  | .transferSubmit => 0#32
  | .flags => d.flags
  | .destAddress => d.destAddress
  | .srcAddress => d.srcAddress
  | .xLength => d.xLength
  | .yLength => d.yLength
  | .destStride => d.destStride
  | .srcStride => d.srcStride
  | .transferDone => d.transferDone

def ModemTx.read (m : ModemTx) : TReg → U32
  | .reset => m.reset
  | .txSrcSel => m.txSrcSel

def ModemRx.read (m : ModemRx) : RReg → U32
  | .reset => m.reset
  | .rxEnable => m.rxEnable
  | .loopBw => m.loopBw
  | .eqGain => m.eqGain
  | .bypassCoding => m.bypassCoding
  | .bypassEq => m.bypassEq
  | .detThresh => m.detThresh
  | .payloadLen => m.payloadLen
  | .frCoef 0 => m.frCoef0
  | .frCoef 1 => m.frCoef1
  | .frCoef 2 => m.frCoef2
  | .frCoef 3 => m.frCoef3

/-- `RegRead(sp, name)` (R402). -/
def State.regRead (s : State) : Reg → U32
  | .dmac e r => (s.dmac e).read r
  | .mtx r => s.mtx.read r
  | .mrx r => s.mrx.read r

/-- The record a submit appends (R541); the row shape is that of the registers at the submit (log 4). -/
def Dmac.newRec (d : Dmac) (e : Engine) : DmaRec where
  id := d.transferId
  addr := match e with
    | .tx => d.srcAddress.toNat
    | .rx => d.destAddress.toNat
  rows := d.yLength.toNat + 1
  rowLen := d.xLength.toNat + 1
  stride := match e with
    | .tx => d.srcStride.toNat
    | .rx => d.destStride.toNat
  cyclic := d.flags.getLsbD 0
  started := false

/-- Submit a transfer (R541). -/
def Dmac.submit (d : Dmac) (c : Config) (e : Engine) : Dmac :=
  if d.enabled = false ∨ d.queue.length = c.numTransferIds then d
  else
    { d with
      queue := d.queue ++ [d.newRec e]
      transferDone := clearBit d.transferDone d.transferId.toNat
      transferId := u32 ((d.transferId.toNat + 1) % c.numTransferIds) }

/-- A write to a DMA controller register, with its side effect (R403, R541, R545). -/
def Dmac.write (d : Dmac) (c : Config) (e : Engine) (r : DReg) (v : U32) : Dmac :=
  match r with
  | .irqMask => { d with irqMask := v &&& 0x3#32 }
  | .irqPending => { d with irqPending := d.irqPending &&& ~~~(v &&& 0x3#32) }
  | .control =>
    { d with
      control := v &&& 0x3#32
      queue := if v.getLsbD 0 then d.queue else [] }
  | .transferId => d
  | .transferSubmit => if v.getLsbD 0 then d.submit c e else d
  | .flags => { d with flags := v &&& 0x3#32 }
  | .destAddress => { d with destAddress := v }
  | .srcAddress => { d with srcAddress := v }
  | .xLength => { d with xLength := v }
  | .yLength => { d with yLength := v }
  | .destStride => { d with destStride := v }
  | .srcStride => { d with srcStride := v }
  | .transferDone => d

def ModemTx.write (m : ModemTx) (r : TReg) (v : U32) : ModemTx :=
  match r with
  | .reset => { m with reset := v &&& 0x1#32 }
  | .txSrcSel => { m with txSrcSel := v }

/-- A write to an RX IP core register; setting `RESET[0]` empties `RXQ` (R403, R851). -/
def ModemRx.write (m : ModemRx) (r : RReg) (v : U32) : ModemRx :=
  match r with
  | .reset =>
    { m with
      reset := v &&& 0x1#32
      rxq := if v.getLsbD 0 then [] else m.rxq }
  | .rxEnable => { m with rxEnable := v &&& 0x1#32 }
  | .loopBw => { m with loopBw := v }
  | .eqGain => { m with eqGain := v }
  | .bypassCoding => { m with bypassCoding := v &&& 0x1#32 }
  | .bypassEq => { m with bypassEq := v &&& 0x1#32 }
  | .detThresh => { m with detThresh := v }
  | .payloadLen => m
  | .frCoef 0 => { m with frCoef0 := v }
  | .frCoef 1 => { m with frCoef1 := v }
  | .frCoef 2 => { m with frCoef2 := v }
  | .frCoef 3 => { m with frCoef3 := v }

/-- `RegWrite(sp, name, v)` before the latch rule. -/
def State.regStore (s : State) (r : Reg) (v : U32) : State :=
  match r with
  | .dmac e r => s.setDmac e ((s.dmac e).write s.cfg e r v)
  | .mtx r => { s with mtx := s.mtx.write r v }
  | .mrx r => { s with mrx := s.mrx.write r v }

/-- `RegWrite(sp, name, v)`: the register, its side effect, then the latch rule (R403). -/
def State.regWrite (s : State) (r : Reg) (v : U32) : State := (s.regStore r v).latch

/-! ## The life of a command (R13, R18, R902) -/

/-- Set the label of a channel. -/
def State.goto (s : State) (c : Channel) (l : Label) : State := s.setChan c { s.chan c with pc := l }

/-- Set the label and the locals of a channel. -/
def State.gotoWith (s : State) (c : Channel) (l : Label) (x : Locals) : State :=
  s.setChan c { s.chan c with pc := l, loc := x }

/-- `finish(st, r0, …)` (R13, R18). -/
def State.finish (s : State) (c : Channel) (st : Status) (vs : List U32) : State :=
  s.setChan c
    { s.chan c with busy := false, status := st.code, res := (s.chan c).res.put vs, pc := .idle }

/-- `raise E`: finish with every result register unchanged (R13, R902). -/
def State.raise (s : State) (c : Channel) (st : Status) : State := s.finish c st []

/-- `log(event)` (R13, R170). -/
def State.logEvent (s : State) (e : Event) : State := { s with log := s.log ++ [e] }

/-- The `n` free draws that follow (R543), and the state in which they are drawn. -/
def State.drawBytes (s : State) (n : Nat) : List Byte × State :=
  ((List.range n).map fun k => Config.freeByte (s.draws + k), { s with draws := s.draws + n })

end Sys2Proof.Machine
end

