-- ==== Sys2Proof/Machine/Frame.lean ====
section
/-! DEFINITION. The frame codec: little-endian fields, the header layout, the CRC, encoding and verification
(R320 to R325, R601 to R605). -/

namespace Sys2Proof.Machine

/-- `le16bytes(v)` (R11). -/
def le16bytes (v : U16) : List Byte := [v.extractLsb' 0 8, v.extractLsb' 8 8]

/-- `le32bytes(v)` (R11). -/
def le32bytes (v : U32) : List Byte :=
  [v.extractLsb' 0 8, v.extractLsb' 8 8, v.extractLsb' 16 8, v.extractLsb' 24 8]

/-- `le16` of the two bytes at index `i` of a byte string (R11). -/
def le16 (b : List Byte) (i : Nat) : U16 := b.getD (i + 1) 0#8 ++ b.getD i 0#8

/-- `le32` of the four bytes at index `i` of a byte string (R11). -/
def le32 (b : List Byte) (i : Nat) : U32 :=
  b.getD (i + 3) 0#8 ++ b.getD (i + 2) 0#8 ++ b.getD (i + 1) 0#8 ++ b.getD i 0#8

/-- `HdrBytes` (R321). -/
def hdrBytes (h : Hdr) : List Byte :=
  le32bytes h.ident ++ le32bytes h.packId ++ le32bytes h.packSz ++ le32bytes h.frameId ++
    le32bytes h.numFrames ++ le32bytes h.mtu ++ le32bytes h.frameSz ++ le16bytes h.crc ++ le16bytes h.crc2

/-- Header field extraction (R321). -/
def hdrOf (b : List Byte) : Hdr where
  ident := le32 b 0
  packId := le32 b 4
  packSz := le32 b 8
  frameId := le32 b 12
  numFrames := le32 b 16
  mtu := le32 b 20
  frameSz := le32 b 24
  crc := le16 b 28
  crc2 := le16 b 30

/-! ## CRC (R601) -/

/-- One bit of the CRC: shift left, and add the polynomial 0x1021 when the bit shifted out is 1. -/
def crcShift (c : U16) : U16 := if c.getLsbD 15 then (c <<< 1) ^^^ 0x1021#16 else c <<< 1

/-- `k` bits. -/
def crcShifts : Nat → U16 → U16
  | 0, c => c
  | k + 1, c => crcShifts k (crcShift c)

/-- One byte of the CRC. -/
def crcByte (c : U16) (b : Byte) : U16 := crcShifts 8 (c ^^^ (b.setWidth 16 <<< 8))

/-- CRC-16/CCITT-FALSE, the spec's default `CRC16` (R601). -/
def crcCcitt (bs : List Byte) : U16 := bs.foldl crcByte 0xFFFF#16

/-- The parameter `CRC16` (R8, R601). -/
def crc16 (c : Config) (bs : List Byte) : U16 :=
  match c.crc16 with
  | .ccittFalse => crcCcitt bs
  | .other k => (Config.otherCrc k).fn.val bs

/-! ## Encode, decode, verify -/

/-- The header `Encode` writes (R603). -/
def encodeHdr (c : Config) (payload : List Byte) (mtu packId frameId numFrames packSz : U32) : Hdr where
  ident := c.guid
  packId := packId
  packSz := packSz
  frameId := frameId
  numFrames := numFrames
  mtu := mtu
  frameSz := u32 payload.length
  crc := crc16 c payload
  crc2 := crc16 c payload

/-- The bytes of a frame: header, payload, zero padding, reserved pad of zeros (R324, R603). -/
def frameBytes (c : Config) (payload : List Byte) (mtu packId frameId numFrames packSz : U32) : List Byte :=
  hdrBytes (encodeHdr c payload mtu packId frameId numFrames packSz) ++ payload ++
    List.replicate (pad8 payload.length - payload.length) 0#8 ++ List.replicate c.resvPad 0#8

/-- `Encode`, one atomic step on an engine's buffer (R603). -/
def State.encode (s : State) (e : Engine) (o : Nat) (payload : List Byte)
    (mtu packId frameId numFrames packSz : U32) : State :=
  s.bufWrite e o (frameBytes s.cfg payload mtu packId frameId numFrames packSz)

/-- `DecodeHdr` (R604). -/
def State.decodeHdr (s : State) (e : Engine) (o : Nat) : Hdr := hdrOf (s.readMem (.buf e) o hdrSize)

/-- `Verify` (R605). -/
def verify (c : Config) (h : Hdr) (payload : List Byte) : Verdict :=
  if h.crc ≠ h.crc2 then .unverifiable
  else if crc16 c payload = h.crc then .verified
  else .mismatch

/-- The word of header bytes 28 to 31: `frame_crc + 2^16 × frame_crc2` (R203). -/
def crcWord (h : Hdr) : U32 := h.crc2 ++ h.crc

end Sys2Proof.Machine
end

