-- ==== Sys2Proof/Machine/DmaProc.lean ====
section
/-! DEFINITION. The DMA Transfer Engine's sub-procedures `DmaWrite` (engine TX) and `DmaRead` (engine RX), with
`WaitPhase` and `PollDone`, one atomic step at a time (R504 to R512). A channel or the worker runs them. -/

namespace Sys2Proof.Machine

/-- What one step of a DMA procedure does: go on at a label, return a status and value to its caller, or nothing,
because the wait it stands at is not enabled. -/
inductive DmaNext where
  | go (l : DmaLabel) (d : DmaLocals) (s : State)
  | ret (st : Status) (v : U32) (s : State)
  | blocked

/-- The register of an engine's controller. -/
def dReg (e : Engine) (r : DReg) : Reg := .dmac e r

/-- The address register the engine programs (R505 DW7, R507 DR7). -/
def addrReg : Engine → DReg
  | .tx => .srcAddress
  | .rx => .destAddress

/-- The stride register the engine programs (R505 DW8, R507 DR8). -/
def strideReg : Engine → DReg
  | .tx => .srcStride
  | .rx => .destStride

/-- The label at which a wait for a phase begins, and a spurious wake begins again: WP1 reads the completion bitmap
only in the read's wait for EOT (`shortcut = 1`, R507 DR14); else the first shared step is WP2 (R509). -/
def waitLabel (e : Engine) (ph : Phase) : DmaLabel :=
  match e, ph with
  | .rx, .eot => .wp1
  | _, _ => .wp2

/-- Where the procedure stands after a phase wait returned ok or timed out, which its callers treat alike
(R505 DW15 to DW17, R507 DR14, DR15, R509). -/
def afterPhase (e : Engine) (d : DmaLocals) (s : State) : DmaNext :=
  match d.phase with
  | .eot => .go .pd1 d s
  | .sot =>
    if e = .tx ∧ d.cnf = false then .go .back d s
    else if d.eotSeen then .go .pd1 d s
    else .go (waitLabel e .eot) { d with phase := .eot } s

/-- DW1/DR1: the checks, before any register access (R504). -/
def dmaCheck (e : Engine) (d : DmaLocals) (s : State) : DmaNext :=
  if s.isOpen e = false then .ret .eNotOpen 0#32 s
  else if dmaSizeOk s.cfg e d.off d.size = false then .ret .eSize 0#32 s
  else if d.size = 0#32 then .ret .ok 0#32 s
  else .go .d2 d s

/-- WP3: the interrupt wait (R509). -/
def dmaIrqWait (e : Engine) (d : DmaLocals) (s : State) : DmaNext :=
  match s.irqWait e.space d.t0 s.cfg.dmaIrqTimeoutMs with
  | none => .blocked
  | some (.error, s') => .ret .eBus 0#32 s'
  | some (.none, s') => afterPhase e d s'
  | some (.pending, s') => .go .wp4 d s'

/-- WP5: acknowledge exactly what was seen, note an EOT, and return or retry (R509). -/
def dmaAck (e : Engine) (d : DmaLocals) (s : State) : DmaNext :=
  let s' := s.regWrite (dReg e .irqPending) d.pend
  let d' := { d with eotSeen := d.eotSeen || d.pend.getLsbD 1 }
  if d.pend.getLsbD d.phase.bit then afterPhase e d' s' else .go (waitLabel e d.phase) d' s'

/-- One atomic step of `DmaWrite`/`DmaRead` on engine `e` at a label (R505, R507, R509, R510). -/
def dmaStep (e : Engine) (l : DmaLabel) (d : DmaLocals) (s : State) : DmaNext :=
  match l with
  | .d1 => dmaCheck e d s
  | .d2 => .go .d3 d (s.regWrite (dReg e .control) 0#32)
  | .d3 => .go .d4 d (s.regWrite (dReg e .control) 1#32)
  | .d4 => .go .d5 d (s.regWrite (dReg e .irqPending) 0x3#32)
  | .d5 => .go .d6 d (s.regWrite (dReg e .irqMask) 0#32)
  | .d6 => .go .d7 d (s.regWrite (dReg e .flags) (bitWord (d.cyc && decide (e = .tx))))
  | .d7 => .go .d8 d (s.regWrite (dReg e (addrReg e)) (u32 (s.cfg.bufPhys e + d.off)))
  | .d8 => .go .d9 d (s.regWrite (dReg e (strideReg e)) d.size)
  | .d9 => .go .d10 d (s.regWrite (dReg e .xLength) (d.size - 1#32))
  | .d10 => .go .d11 d (s.regWrite (dReg e .yLength) 0#32)
  | .d11 => .go .d12 { d with id := s.regRead (dReg e .transferId) } s
  | .d12 =>
    let s' := s.regWrite (dReg e .transferSubmit) 1#32
    if e = .tx ∧ d.cyc then .go .back d s'
    else .go (waitLabel e .sot) { d with phase := .sot, eotSeen := false } s'
  | .wp1 =>
    if (s.regRead (dReg e .transferDone)).getLsbD d.id.toNat then afterPhase e d s else .go .wp2 d s
  | .wp2 => .go .wp3 { d with t0 := s.timeMs } (s.irqUnmask e.space)
  | .wp3 => dmaIrqWait e d s
  | .wp4 => .go .wp5 { d with pend := s.regRead (dReg e .irqPending) } s
  | .wp5 => dmaAck e d s
  | .pd1 =>
    if (s.regRead (dReg e .transferDone)).getLsbD d.id.toNat then .go .back d s else .go .pd1 d s
  | .back => .ret .ok d.size s

end Sys2Proof.Machine
end

