-- ==== Sys2Proof/Machine/Controller.lean ====
section
/-! DEFINITION. The DMA controller agents `DMAC_TX` and `DMAC_RX` (R540 to R546), and the RX IP core as a source of
frames (R850). The TX IP core is a sink without steps of its own (R760). -/

namespace Sys2Proof.Machine

/-- SOT of the head record (R542). -/
def Dmac.start (d : Dmac) (r : DmaRec) (rest : List DmaRec) : Dmac :=
  { d with queue := { r with started := true } :: rest }.signal .sot

/-- The end of a completed transfer: EOT, the done bit, and the record leaves unless it is cyclic (R543, R544). -/
def Dmac.complete (d : Dmac) (r : DmaRec) (rest : List DmaRec) : Dmac :=
  let d' := d.signal .eot
  { d' with
    transferDone := setBit d'.transferDone r.id.toNat
    queue := if r.cyclic then r :: rest else rest }

/-- The bytes of a TX transfer: the rows of the buffer, concatenated (R543). -/
def State.gather (s : State) (r : DmaRec) : List Byte :=
  (r.ranges.map fun x => s.readMem (.buf .tx) (x.1 - s.cfg.bufPhysTx) x.2).flatten

/-- Write the rows of an RX transfer, first row first (R543, log 4). -/
def State.scatter (s : State) (ranges : List (Nat × Nat)) (bs : List Byte) : State :=
  match ranges with
  | [] => s
  | x :: xs =>
    State.scatter (s.writeMem (.buf .rx) (x.1 - s.cfg.bufPhysRx) (bs.take x.2)) xs (bs.drop x.2)

/-- Completion on engine TX: the bytes reach the TX IP core (R543, R760). -/
def completeTx (r : DmaRec) (rest : List DmaRec) (s : State) : State :=
  { s.logEvent (.txStream (s.gather r) r.cyclic) with dtx := s.dtx.complete r rest }

/-- Completion on engine RX with the frame `f` at the head of `RXQ`: its bytes, cut or filled with free draws to the
length of the transfer, land in the buffer (R543, R851). -/
def completeRx (r : DmaRec) (rest : List DmaRec) (f : List Byte) (tail : List (U32 × List Byte)) (s : State) : State :=
  let d := s.drawBytes (r.len - f.length)
  { State.scatter d.2 r.ranges (f.take r.len ++ d.1) with
    drx := s.drx.complete r rest
    mrx := { s.mrx with rxq := tail } }

/-- A transfer outside the window: the sticky fault, the record dropped, nothing moved (R202, R543). -/
def dropWild (e : Engine) (rest : List DmaRec) (s : State) : State :=
  { s.setDmac e { s.dmac e with queue := rest } with faultDmaWild := true }

/-- One step of `DMAC_e`: SOT of the head record, or its completion when the stream side is ready; nothing while the
controller is disabled or its queue empty (R540, R542, R543). DESIGN CHOICE (log 23): `open[e]` is not asked, though R111
says that no rule reads `BUF[e]` while the engine is closed; a transfer that the host submits by REG.WRITE then moves. -/
def dmacStep (e : Engine) (s : State) : State :=
  let d := s.dmac e
  match d.queue with
  | [] => s
  | r :: rest =>
    if d.enabled = false then s
    else if r.started = false then s.setDmac e (d.start r rest)
    else
      match e with
      | .tx =>
        if s.mtx.reset.getLsbD 0 then s
        else if r.inside s.cfg .tx then completeTx r rest s
        else dropWild .tx rest s
      | .rx =>
        match s.mrx.rxq with
        | [] => s
        | (_, f) :: tail => if r.inside s.cfg .rx then completeRx r rest f tail s else dropWild .rx rest s

/-- `MODEM_RX` appends an entry while it is enabled, out of reset and its queue has room (R850). -/
def modemRxStep (len : U32) (frame : List Byte) (s : State) : State :=
  if s.mrx.rxEnable.getLsbD 0 ∧ s.mrx.reset.getLsbD 0 = false ∧ s.mrx.rxq.length < s.cfg.rxqDepth then
    { s with mrx := { s.mrx with rxq := s.mrx.rxq ++ [(len, frame)] } }
  else s

end Sys2Proof.Machine
end

