-- ==== Sys2Proof/Machine/Bus.lean ====
section
/-! DEFINITION. The BUS commands on channel `CH_BUS` (R410 to R414). -/

namespace Sys2Proof.Machine

/-- Apply a function to the next state of an answer. -/
def onNext (f : State → State) : Result → Result
  | .next s => .next (f s)
  | .fault r => .fault r
  | .refused r => .refused r

/-- REG.READ (R410). -/
def execRegRead (sp : Space) (s : State) : Result :=
  match s.chBus.pc with
  | .regRead =>
    match regAt s.cfg sp s.chBus.opd.a0 with
    | none => .next (s.raise .bus .eBus)
    | some r => .next (s.finish .bus .ok [s.regRead r])
  | _ => .fault .strayLabel

/-- REG.WRITE (R411). -/
def execRegWrite (sp : Space) (s : State) : Result :=
  match s.chBus.pc with
  | .regWrite =>
    match regAt s.cfg sp s.chBus.opd.a0 with
    | none => .next (s.raise .bus .eBus)
    | some r => .next ((s.regWrite r s.chBus.opd.a1).finish .bus .ok [0#32])
  | _ => .fault .strayLabel

/-- IRQ.MASK (R412). -/
def execIrqMask (sp : Space) (s : State) : Result :=
  match s.chBus.pc with
  | .irqMask => .next ((s.irqMask sp).finish .bus .ok [0#32])
  | _ => .fault .strayLabel

/-- IRQ.UNMASK (R413). -/
def execIrqUnmask (sp : Space) (s : State) : Result :=
  match s.chBus.pc with
  | .irqUnmask => .next ((s.irqUnmask sp).finish .bus .ok [0#32])
  | _ => .fault .strayLabel

/-- IRQ.WAIT (R414): the wait began at the issue; while the picked completion is not enabled the channel stays. -/
def execIrqWait (sp : Space) (s : State) : Result :=
  match s.chBus.pc with
  | .irqWait =>
    match s.irqWait sp s.chBus.loc.t0 s.chBus.opd.a0.toNat with
    | none => .next s
    | some (.error, s') => .next (s'.raise .bus .eBus)
    | some (.pending, s') => .next (s'.finish .bus .ok [1#32])
    | some (.none, s') => .next (s'.finish .bus .ok [0#32])
  | _ => .fault .strayLabel

end Sys2Proof.Machine
end

