-- ==== Sys2Proof/Machine/Dma.lean ====
section
/-! DEFINITION. The DMA commands (R502, R503, R506, R508), on the channel of their engine (R18). -/

namespace Sys2Proof.Machine

/-- `finish(OK, BUF_SIZE_e, BUF_PHYS_e)`, the results of opening an engine (R502, R701, R801). -/
def bufResults (c : Config) (e : Engine) : List U32 := [u32 (c.bufSize e), u32 (c.bufPhys e)]

/-- Open an engine if it is closed (R502, R701, R801): the status, and the state. -/
def State.openEngine (s : State) (e : Engine) : Status × State :=
  if s.isOpen e then (.ok, s)
  else if s.cfg.platformOk e = false then (.eResource, s)
  else if s.cfg.mapOk e = false then (.eMap, s)
  else (.ok, s.setOpen e true)

/-- The locals of a DMA procedure that a command calls with its operands `a0` (offset) and `a1` (size) and the flags
of its word (R506, R508). -/
def dmaArgs (a : Operands) (cyc cnf : Bool) (d : DmaLocals) : DmaLocals :=
  { d with off := a.a0.toNat, size := a.a1, cyc := cyc, cnf := cnf }

/-- One step of a DMA procedure as the body of a channel's command: go on, or finish with what it returns. -/
def dmaCommand (e : Engine) (cyc cnf : Bool) (l : DmaLabel) (s : State) : Result :=
  let c := e.channel
  match dmaStep e l (dmaArgs (s.chan c).opd cyc cnf (s.chan c).loc.dma) s with
  | .go l' d s' => .next (s'.gotoWith c (.dma l') { (s'.chan c).loc with dma := d })
  | .ret .ok v s' => .next (s'.finish c .ok [v])
  | .ret st _ s' => .next (s'.raise c st)
  | .blocked => .next s

/-- DMA.OPEN (R502). -/
def execDmaOpen (e : Engine) (s : State) : Result :=
  match (s.chan e.channel).pc with
  | .dmaOpen =>
    match s.openEngine e with
    | (.ok, s') => .next (s'.finish e.channel .ok (bufResults s.cfg e))
    | (st, s') => .next (s'.raise e.channel st)
  | _ => .fault .strayLabel

/-- DMA.WRITE (R506): engine RX has no write direction, which is tested before anything else. -/
def execDmaWrite (e : Engine) (cyc cnf : Bool) (s : State) : Result :=
  match (s.chan e.channel).pc with
  | .dma l => if e = .rx then .next (s.raise e.channel .eIllegal) else dmaCommand e cyc cnf l s
  | _ => .fault .strayLabel

/-- DMA.READ (R508): direction first, then, at the first step, the worker's ownership (R513). -/
def execDmaRead (e : Engine) (s : State) : Result :=
  match (s.chan e.channel).pc with
  | .dma l =>
    if e = .tx then .next (s.raise e.channel .eIllegal)
    else if l = .d1 ∧ s.workerAlive then .next (s.raise e.channel .eBusy)
    else dmaCommand e false true l s
  | _ => .fault .strayLabel

/-- DMA.CLOSE (R503), two steps: the checks with the register write, then the mask with the close (log 5). -/
def execDmaClose (e : Engine) (s : State) : Result :=
  match (s.chan e.channel).pc with
  | .dcl1 =>
    if e = .rx ∧ s.workerAlive then .next (s.raise e.channel .eBusy)
    else if s.isOpen e = false then .next (s.finish e.channel .ok [0#32])
    else .next ((s.regWrite (dReg e .control) 0#32).goto e.channel .dcl2)
  | .dcl2 => .next (((s.irqMask e.space).setOpen e false).finish e.channel .ok [0#32])
  | _ => .fault .strayLabel

end Sys2Proof.Machine
end

