-- ==== Sys2Proof/Machine/Codec.lean ====
section
/-! DEFINITION. The CODEC commands (R606 to R608), on the channel of their engine (R18). -/

namespace Sys2Proof.Machine

/-- The two checks every CODEC command begins with (R513, R606 to R608). -/
def codecGuard (e : Engine) (s : State) : Status :=
  if e = .rx ∧ s.workerAlive then .eBusy else if s.isOpen e = false then .eNotOpen else .ok

/-- CODEC.ENCODE, first step: the checks, and the payload read from host memory (R606). -/
def encodeFetch (e : Engine) (s : State) : Result :=
  let c := e.channel
  let a := (s.chan c).opd
  if codecGuard e s ≠ .ok then .next (s.raise c (codecGuard e s))
  else if s.cfg.hostMemSize < a.a1.toNat + a.a2.toNat then .next (s.raise c .eSize)
  else if s.cfg.bufSize e < a.a0.toNat + footprint s.cfg a.a2.toNat then .next (s.raise c .eSize)
  else .next (s.gotoWith c .enc2 { (s.chan c).loc with payload := s.readMem .hostMem a.a1.toNat a.a2.toNat })

/-- CODEC.ENCODE, second step: `Encode` and the results (R603, R606). -/
def encodeStore (e : Engine) (s : State) : Result :=
  let c := e.channel
  let a := (s.chan c).opd
  let p := (s.chan c).loc.payload
  .next ((s.encode e a.a0.toNat p a.a3 a.a4 a.a5 a.a6 a.a7).finish c .ok
    [u32 (footprint s.cfg p.length), (crc16 s.cfg p).setWidth 32])

/-- CODEC.ENCODE (R606). -/
def execCodecEncode (e : Engine) (s : State) : Result :=
  match (s.chan e.channel).pc with
  | .enc1 => encodeFetch e s
  | .enc2 => encodeStore e s
  | _ => .fault .strayLabel

/-- The results of CODEC.DECODE (R607). -/
def decodeResults (v : Verdict) (h : Hdr) (k : U32) : List U32 :=
  [v.code, h.ident, h.packId, h.packSz, h.frameId, h.numFrames, h.mtu, h.frameSz, crcWord h, k]

/-- CODEC.DECODE, first step: the checks and the header; it finishes here when the payload runs past the buffer
(R604, R607). -/
def decodeFetch (e : Engine) (s : State) : Result :=
  let c := e.channel
  let o := (s.chan c).opd.a0.toNat
  if codecGuard e s ≠ .ok then .next (s.raise c (codecGuard e s))
  else if s.cfg.bufSize e < o + hdrSize then .next (s.raise c .eSize)
  else
    let h := s.decodeHdr e o
    let s' := s.bufReadNote e o hdrSize
    if s.cfg.bufSize e < o + hdrSize + h.frameSz.toNat then
      .next (s'.finish c .ok (decodeResults .notCopied h 0#32))
    else .next (s'.gotoWith c .dec2 { (s'.chan c).loc with hdr := h })

/-- CODEC.DECODE, second step: the payload and its verdict (R605, R607). -/
def decodeVerify (e : Engine) (s : State) : Result :=
  let c := e.channel
  let o := (s.chan c).opd.a0.toNat
  let h := (s.chan c).loc.hdr
  let p := s.readMem (.buf e) (o + hdrSize) h.frameSz.toNat
  let k := if h.crc = h.crc2 then (crc16 s.cfg p).setWidth 32 else 0#32
  .next ((s.bufReadNote e (o + hdrSize) h.frameSz.toNat).finish c .ok (decodeResults (verify s.cfg h p) h k))

/-- CODEC.DECODE (R607). -/
def execCodecDecode (e : Engine) (s : State) : Result :=
  match (s.chan e.channel).pc with
  | .dec1 => decodeFetch e s
  | .dec2 => decodeVerify e s
  | _ => .fault .strayLabel

/-- CODEC.CRC (R608). -/
def execCodecCrc (e : Engine) (s : State) : Result :=
  let c := e.channel
  let a := (s.chan c).opd
  match (s.chan c).pc with
  | .crc1 =>
    if codecGuard e s ≠ .ok then .next (s.raise c (codecGuard e s))
    else if s.cfg.bufSize e < a.a0.toNat + a.a1.toNat then .next (s.raise c .eSize)
    else
      .next ((s.bufReadNote e a.a0.toNat a.a1.toNat).finish c .ok
        [(crc16 s.cfg (s.readMem (.buf e) a.a0.toNat a.a1.toNat)).setWidth 32])
  | _ => .fault .strayLabel

end Sys2Proof.Machine
end

