-- ==== Sys2Proof/Machine/Tx.lean ====
section
/-! DEFINITION. The TX Framer: the commands TX.* on channel `CH_TX` (R701 to R705), and the fragmenter and
backpressure state machine of TX.WRITE (R710 to R720). -/

namespace Sys2Proof.Machine

/-- TX.INIT (R701). -/
def execTxInit (s : State) : Result :=
  match s.chTx.pc with
  | .txInit =>
    match s.openEngine .tx with
    | (.ok, s') =>
      .next ({ s' with cfgMtu := 0#32, packId := 0#32, txInited := true }.finish .tx .ok (bufResults s.cfg .tx))
    | (st, s') => .next (s'.raise .tx st)
  | _ => .fault .strayLabel

/-- TX.CLOSE (R702), two steps as in DMA.CLOSE (log 5). -/
def execTxClose (s : State) : Result :=
  match s.chTx.pc with
  | .tcl1 =>
    if s.openTx then .next ((s.regWrite (dReg .tx .control) 0#32).goto .tx .tcl2)
    else .next ({ s with txInited := false }.finish .tx .ok [0#32])
  | .tcl2 => .next ({ s.irqMask .dtx with openTx := false, txInited := false }.finish .tx .ok [0#32])
  | _ => .fault .strayLabel

/-- TX.SETMTU (R703). -/
def execTxSetMtu (s : State) : Result :=
  match s.chTx.pc with
  | .txSetMtu =>
    if s.txInited = false then .next (s.raise .tx .eNotOpen)
    else
      .next ({ s with cfgMtu := s.chTx.opd.a0 }.finish .tx .ok [u32 (normMtu s.cfg s.chTx.opd.a0)])
  | _ => .fault .strayLabel

/-- TX.RESET (R704). -/
def execTxReset (s : State) : Result :=
  match s.chTx.pc with
  | .tr1 => if s.txInited = false then .next (s.raise .tx .eNotOpen) else .next (s.goto .tx .tr2)
  | .tr2 => .next ((s.regWrite (.mtx .reset) 1#32).goto .tx .tr3)
  | .tr3 => .next ((s.regWrite (.mtx .txSrcSel) s.chTx.opd.a0).goto .tx .tr4)
  | .tr4 => .next ((s.regWrite (.mtx .reset) 0#32).finish .tx .ok [0#32])
  | _ => .fault .strayLabel

/-! ## TX.WRITE (R705, R720) -/

/-- TW1 CHECK (R705). -/
def txCheck (s : State) : State :=
  let a := s.chTx.opd
  if s.txInited = false ∨ s.openTx = false then s.raise .tx .eNotOpen
  else if s32 a.a1 ≤ 0 then s.raise .tx .eSize
  else if s.cfg.hostMemSize < a.a0.toNat + a.a1.toNat then s.raise .tx .eSize
  else s.gotoWith .tx .tw2 { s.chTx.loc with n := a.a1.toNat }

/-- TW2 PLAN: normalise the MTU and write it back, check the fit, number the packet, choose the mode
(R705, R710 to R712, R714, R715). -/
def txPlan (s : State) : State :=
  let x := s.chTx.loc
  let m := normMtu s.cfg s.cfgMtu
  let nf := ceilDiv x.n m
  let s' := { s with cfgMtu := u32 m }
  if packetTooLarge s.cfg x.n m then s'.raise .tx .ePacketTooLarge
  else
    { s' with packId := s.packId + 1#32 }.gotoWith .tx (if nf ≤ s.cfg.bpThreshold then .tsEnc else .tbEnc)
      { x with m := m, nf := nf, pid := s.packId + 1#32, i := 0, off := 0 }

/-- The size of the frame the framer stands at. -/
def txFrameSize (x : Locals) : Nat := frameSize x.n x.m x.nf x.i

/-- Build frame `i` at `off`, one atomic step (R713). -/
def txBuild (s : State) : State :=
  let x := s.chTx.loc
  s.encode .tx x.off (s.readMem .hostMem (s.chTx.opd.a0.toNat + x.i * x.m) (txFrameSize x)) (u32 x.m) x.pid
    (u32 x.i) (u32 x.nf) (u32 x.n)

/-- The locals of a flush `DmaWrite(TX, off, len, cyc = 0, cnf = 1)` (R714, R715, R717). -/
def flushLocals (off len : Nat) : DmaLocals := { off := off, size := u32 len, cyc := false, cnf := true }

/-- TS_ENC STAGE (R714). -/
def txStage (s : State) : State :=
  let x := s.chTx.loc
  let off := x.off + footprint s.cfg (txFrameSize x)
  let x' := { x with i := x.i + 1, off := off }
  if x.i + 1 < x.nf then (txBuild s).gotoWith .tx .tsEnc x'
  else (txBuild s).gotoWith .tx (.tsFlush .d1) { x' with tEnd := off, dma := flushLocals 0 off }

/-- TB_ENC BUILD (R715). -/
def txBuildOne (s : State) : State :=
  let x := s.chTx.loc
  (txBuild s).gotoWith .tx (.tbFlush .d1)
    { x with dma := flushLocals x.off (footprint s.cfg (txFrameSize x)) }

/-- After the flush of frame `i`: advance, then pause, build on, or end the burst (R716, R720). -/
def txFlushed (s : State) : State :=
  let x := s.chTx.loc
  let i := x.i + 1
  let x' := { x with i := i, off := x.off + footprint s.cfg (txFrameSize x) }
  if i % s.cfg.bpThrottleEvery = 0 ∧ i < x.nf then s.gotoWith .tx .tbThr x'
  else if i < x.nf then s.gotoWith .tx .tbEnc x'
  else s.gotoWith .tx .tbEob x'

/-- TB_THR THROTTLE: log the pause and begin it (R716, R21). -/
def txThrottle (s : State) : State :=
  (s.logEvent (.throttlePause (s.chTx.loc.i - 1))).gotoWith .tx .tbPause { s.chTx.loc with t0 := s.timeMs }

/-- The pause `wait until false or timeout BP_PAUSE_MS` (R21): only its timeout completes it. -/
def txPause (s : State) : State :=
  if s.pick = .expire ∧ s.expired (s.chTx.loc.t0 + s.cfg.bpPauseMs) false then s.goto .tx .tbEnc else s

/-- TB_EOB END-OF-BURST: the zero-length frame at offset 0 (R717). -/
def txEndOfBurst (s : State) : State :=
  let x := s.chTx.loc
  (s.encode .tx 0 [] (u32 x.m) x.pid (u32 x.nf) (u32 x.nf) (u32 x.n)).gotoWith .tx (.tbEobf .d1)
    { x with dma := flushLocals 0 (footprint s.cfg 0) }

/-- A flush as a state of the machine: its DMA steps under the label shown, then what follows; a status other than
OK ends the command (R718, R720). -/
def txFlush (mk : DmaLabel → Label) (k : State → State) (l : DmaLabel) (s : State) : State :=
  match dmaStep .tx l s.chTx.loc.dma s with
  | .go l' d s' => s'.gotoWith .tx (mk l') { s'.chTx.loc with dma := d }
  | .ret .ok _ s' => k s'
  | .ret st _ s' => s'.raise .tx st
  | .blocked => s

/-- TW_DONE (R718). -/
def txDone (s : State) : State :=
  let x := s.chTx.loc
  s.finish .tx .ok [u32 x.n, x.pid, u32 x.nf, u32 x.m]

/-- TX.WRITE (R705, R720). -/
def execTxWrite (s : State) : Result :=
  match s.chTx.pc with
  | .tw1 => .next (txCheck s)
  | .tw2 => .next (txPlan s)
  | .tsEnc => .next (txStage s)
  | .tsFlush l => .next (txFlush .tsFlush (fun t => t.goto .tx .twDone) l s)
  | .tbEnc => .next (txBuildOne s)
  | .tbFlush l => .next (txFlush .tbFlush txFlushed l s)
  | .tbThr => .next (txThrottle s)
  | .tbPause => .next (txPause s)
  | .tbEob => .next (txEndOfBurst s)
  | .tbEobf l => .next (txFlush .tbEobf (fun t => t.goto .tx .twDone) l s)
  | .twDone => .next (txDone s)
  | _ => .fault .strayLabel

end Sys2Proof.Machine
end

