-- ==== Sys2Proof/Machine/Rx.lean ====
section
/-! DEFINITION. The RX commands on channel `CH_RX`: configuration (R801 to R805), the consumer RX.RECEIVE
(R810 to R815) and RX.READ (R820 to R822). -/

namespace Sys2Proof.Machine

/-- RX.INIT (R801). -/
def execRxInit (s : State) : Result :=
  match s.chRx.pc with
  | .rxInit =>
    if s.workerAlive then .next (s.raise .rx .eBusy)
    else
      match s.openEngine .rx with
      | (.ok, s') =>
        .next ({ s' with rx :=
          { s'.rx with
            inited := true, state := .idle, configured := false, count := 0#32, nextOff := 0
            workerRet := 0#32, tmoCount := 0, done := true } }.finish .rx .ok (bufResults s.cfg .rx))
      | (st, s') => .next (s'.raise .rx st)
  | _ => .fault .strayLabel

/-- RX.CLOSE (R802). -/
def execRxClose (s : State) : Result :=
  match s.chRx.pc with
  | .rc1 =>
    if s.rx.inited = false ∧ s.openRx = false then .next (s.finish .rx .ok [0#32]) else .next (s.goto .rx .rc2)
  | .rc2 => .next ({ s with rx := { s.rx with done := true } }.goto .rx .rc3)
  | .rc3 => if s.workerAlive then .next s else .next (s.goto .rx .rc4)
  | .rc4 => .next ((s.irqMask .mrx).goto .rx .rc5)
  | .rc5 => .next ((if s.openRx then s.regWrite (dReg .rx .control) 0#32 else s).goto .rx .rc6)
  | .rc6 => .next ((if s.openRx then (s.irqMask .drx).setOpen .rx false else s).goto .rx .rc7)
  | .rc7 => .next ({ s with rx := { s.rx with inited := false, state := .idle } }.finish .rx .ok [0#32])
  | _ => .fault .strayLabel

/-- The step after RR8: the coefficients when bit 2 of `a2` asks for them and some exist, else RR10 (R803). -/
def rxCoefLabel (s : State) : Label :=
  if s.chRx.opd.a2.getLsbD 2 ∧ 0 < s.cfg.frCoefCount then .rr9 else .rr10

/-- RR9: one coefficient register a step (R803). -/
def rxWriteCoef (s : State) : State :=
  let k := s.chRx.loc.k
  let s' := s.regWrite (.mrx (.frCoef (Fin.ofNat 4 k))) (s.chRx.opd.get (Fin.ofNat 8 (4 + k)))
  if k + 1 < s.cfg.frCoefCount then s'.gotoWith .rx .rr9 { s.chRx.loc with k := k + 1 } else s'.goto .rx .rr10

/-- RX.RESET (R803). -/
def execRxReset (s : State) : Result :=
  let a := s.chRx.opd
  match s.chRx.pc with
  | .rr1 =>
    if s.rx.inited = false then .next (s.raise .rx .eNotOpen)
    else if s.workerAlive then .next (s.raise .rx .eBusy)
    else .next (s.goto .rx .rr2)
  | .rr2 => .next ((s.regWrite (.mrx .rxEnable) 0#32).goto .rx .rr3)
  | .rr3 => .next ((s.regWrite (.mrx .reset) 1#32).goto .rx .rr4)
  | .rr4 => .next ((s.regWrite (.mrx .loopBw) a.a0).goto .rx .rr5)
  | .rr5 => .next ((s.regWrite (.mrx .eqGain) a.a1).goto .rx .rr6)
  | .rr6 => .next ((s.regWrite (.mrx .bypassCoding) (bitWord (a.a2.getLsbD 0))).goto .rx .rr7)
  | .rr7 => .next ((s.regWrite (.mrx .bypassEq) (bitWord (a.a2.getLsbD 1))).goto .rx .rr8)
  | .rr8 =>
    .next ((s.regWrite (.mrx .detThresh) a.a3).gotoWith .rx (rxCoefLabel s) { s.chRx.loc with k := 0 })
  | .rr9 => .next (rxWriteCoef s)
  | .rr10 => .next ((s.regWrite (.mrx .reset) 0#32).goto .rx .rr11)
  | .rr11 => .next ((s.regWrite (.mrx .rxEnable) 1#32).goto .rx .rr12)
  | .rr12 => .next ({ s with rx := { s.rx with configured := true } }.finish .rx .ok [0#32])
  | _ => .fault .strayLabel

/-- RX.START (R804). -/
def execRxStart (s : State) : Result :=
  match s.chRx.pc with
  | .rxStart =>
    if s.rx.inited = false then .next (s.raise .rx .eNotOpen)
    else .next ((s.regWrite (.mrx .rxEnable) 1#32).finish .rx .ok [0#32])
  | _ => .fault .strayLabel

/-- RX.STOP, two steps (R805). -/
def execRxStop (s : State) : Result :=
  match s.chRx.pc with
  | .rp1 =>
    if s.rx.inited = false then .next (s.raise .rx .eNotOpen)
    else .next ((s.regWrite (.mrx .rxEnable) 0#32).goto .rx .rp2)
  | .rp2 =>
    .next ({ s with rx := { s.rx with done := s.rx.done || s.workerAlive } }.finish .rx .ok [0#32])
  | _ => .fault .strayLabel

/-! ## RX.RECEIVE (R810 to R815) -/

/-- End the receive cycle: `done <- 1`, a terminal state, and the completion (R812 to R815). -/
def State.endCycle (s : State) (ph : RxPhase) (st : Status) (vs : List U32) : State :=
  { s with rx := { s.rx with done := true, state := ph } }.finish .rx st vs

/-- RV1: the entry checks (R810). -/
def rvCheck (s : State) : State :=
  if s.rx.inited = false ∨ s.openRx = false then s.raise .rx .eNotOpen
  else if s.rx.configured = false then s.raise .rx .rxNotConfigured
  else s.goto .rx .rv2

/-- RV3: reset the per-cycle state (R811). -/
def rvArm (s : State) : State :=
  { s with rx :=
    { s.rx with
      state := .arming, count := 0#32, nextOff := 0, workerRet := 0#32, tmoCount := 0
      configured := false } }.goto .rx .rv4

/-- RV4: spawn the worker and set the first deadline (R811). -/
def rvSpawn (s : State) : State :=
  { s with rx := { s.rx with done := false, state := .receiving }, worker := { pc := .w1 } }.gotoWith .rx .rv5
    { s.chRx.loc with deadline := s.timeMs + s.cfg.rxFirstDeadlineMs }

/-- A wait with an absolute deadline, under the pick of the move (R20): where it goes, if its completion is enabled. -/
def rvWait (p : Bool) (onWake onExpire : Label) (s : State) : State :=
  match s.pick with
  | .wake => if p then s.goto .rx onWake else s
  | .expire => if s.expired s.chRx.loc.deadline p then s.goto .rx onExpire else s
  | .fail => s

/-- RV6: the count is tested again after the wake (R812). -/
def rvFirst (s : State) : State :=
  if s.rx.count = 0#32 then s.endCycle .timedOut .rxTimeout [] else s.goto .rx .rv7

/-- The status of the first header, checks in the order of R813. -/
def hdrStatus (c : Config) (h : Hdr) : Status :=
  if h.ident ≠ c.guid then .rxInvalidGuid
  else if h.packSz = 0#32 then .rxPackSzZero
  else if h.numFrames = 0#32 then .rxNumFramesZero
  else if h.frameSz = 0#32 then .rxFrameSzZero
  else if c.rxFrameSzMax < h.frameSz.toNat then .rxFrameSzTooLarge
  else if h.mtu = 0#32 then .rxMtuZero
  else .ok

/-- RV7: first-header validation (R813). -/
def rvValidate (s : State) : State :=
  let o := (s.tableAt 0).toNat
  let h := s.decodeHdr .rx o
  let s' := s.bufReadNote .rx o hdrSize
  if hdrStatus s.cfg h = .ok then { s' with rx := { s'.rx with hdr0 := h } }.goto .rx .rv8
  else s'.endCycle .failed (hdrStatus s.cfg h) []

/-- The frame counter has reached `num_frames` of frame 0 (R814). -/
def State.packetComplete (s : State) : Bool := decide (s.rx.hdr0.numFrames ≤ s.rx.count)

/-- The successful end of a receive (R810, R814). -/
def rvComplete (s : State) : State :=
  s.endCycle .complete .ok [s.rx.hdr0.packSz, s.rx.hdr0.numFrames, s.rx.count]

/-- RV8: the count first, then the worker's code, then a fresh deadline (R814). -/
def rvLoop (s : State) : State :=
  if s.packetComplete then rvComplete s
  else if s.rx.workerRet ≠ 0#32 then s.endCycle .timedOut .rxTimeout []
  else
    s.gotoWith .rx .rv9
      { s.chRx.loc with c0 := s.rx.count, deadline := s.timeMs + s.cfg.rxFrameDeadlineMs }

/-- RV10: the count once more, else the timeout (R814). -/
def rvLast (s : State) : State :=
  if s.packetComplete then rvComplete s else s.endCycle .timedOut .rxTimeout []

/-- RX.RECEIVE (R810 to R815). -/
def execRxReceive (s : State) : Result :=
  match s.chRx.pc with
  | .rv1 => .next (rvCheck s)
  | .rv2 => if s.workerAlive then .next s else .next (s.goto .rx .rv3)
  | .rv3 => .next (rvArm s)
  | .rv4 => .next (rvSpawn s)
  | .rv5 => .next (rvWait (decide (1#32 ≤ s.rx.count) || decide (s.rx.workerRet ≠ 0#32)) .rv6 .rv6 s)
  | .rv6 => .next (rvFirst s)
  | .rv7 => .next (rvValidate s)
  | .rv8 => .next (rvLoop s)
  | .rv9 => .next (rvWait (decide (s.chRx.loc.c0 < s.rx.count) || decide (s.rx.workerRet ≠ 0#32)) .rv8 .rv10 s)
  | .rv10 => .next (rvLast s)
  | _ => .fault .strayLabel

/-! ## RX.READ (R820 to R822) -/

/-- RD3: the destination range, and the loop's start; with no entry the loop is skipped (R820). -/
def rdStart (s : State) : State :=
  let a := s.chRx.opd
  if s.cfg.hostMemSize < a.a0.toNat + a.a1.toNat then s.raise .rx .eSize
  else
    s.gotoWith .rx (if s.rx.count = 0#32 then .rd5 else .rd4)
      { s.chRx.loc with cur := 0, valid := 0, total := s.rx.count.toNat, j := 0 }

/-- `crc_status[j] <- v` (R821). -/
def State.setCrcStatus (s : State) (j : Nat) (v : Verdict) : State :=
  { s with rx := { s.rx with crcStatus := Sparse.write s.rx.crcStatus j [v] } }

/-- The end of an entry's step: the next entry, or RD5. -/
def rdNext (x : Locals) (s : State) : State :=
  s.gotoWith .rx (if x.j + 1 < x.total then .rd4 else .rd5) { x with j := x.j + 1 }

/-- Copy an entry's payload and verify it: the bytes are copied whatever the verdict (R821). -/
def rdCopy (x : Locals) (o : Nat) (h : Hdr) (s : State) : State :=
  let fs := h.frameSz.toNat
  let p := s.readMem (.buf .rx) (o + hdrSize) fs
  let v := verify s.cfg h p
  let s' := ((s.bufReadNote .rx (o + hdrSize) fs).writeMem .hostMem (s.chRx.opd.a0.toNat + x.cur) p).setCrcStatus x.j v
  if v = .verified then rdNext { x with cur := x.cur + fs, valid := x.valid + fs } s'
  else rdNext { x with cur := x.cur + fs } (s'.logEvent (.crcEvent x.j v))

/-- RD4: the per-entry step (R821). -/
def rdEntry (s : State) : State :=
  let x := s.chRx.loc
  let o := (s.tableAt x.j).toNat
  if s.cfg.bufSizeRx < o + hdrSize then rdNext x (s.setCrcStatus x.j .notCopied)
  else
    let h := s.decodeHdr .rx o
    let s' := s.bufReadNote .rx o hdrSize
    if s.cfg.bufSizeRx < o + hdrSize + h.frameSz.toNat ∨ s.chRx.opd.a1.toNat < x.cur + h.frameSz.toNat then
      rdNext x (s'.setCrcStatus x.j .notCopied)
    else rdCopy x o h s'

/-- RD5: the table is discarded, and the results (R820). -/
def rdEnd (s : State) : State :=
  let x := s.chRx.loc
  { s with rx := { s.rx with count := 0#32, state := .idle } }.finish .rx .ok [u32 x.valid, u32 x.cur, u32 x.total]

/-- RX.READ (R820). -/
def execRxRead (s : State) : Result :=
  match s.chRx.pc with
  | .rd1 =>
    if s.rx.inited = false ∨ s.openRx = false then .next (s.raise .rx .eNotOpen) else .next (s.goto .rx .rd2)
  | .rd2 => if s.workerAlive then .next s else .next (s.goto .rx .rd3)
  | .rd3 => .next (rdStart s)
  | .rd4 => .next (rdEntry s)
  | .rd5 => .next (rdEnd s)
  | _ => .fault .strayLabel

end Sys2Proof.Machine
end

