-- ==== Sys2Proof/Machine/Dispatch.lean ====
section
/-! DEFINITION. The dispatch of a command to its meaning: one atomic step of the command's procedure, at the label
where its channel stands (R14, R19). -/

namespace Sys2Proof.Machine

def exec (i : Instr) (s : State) : Host.Outcome State Fault Refusal :=
  match i with
  | .regRead sp => Sys2Proof.Machine.execRegRead sp s
  | .regWrite sp => Sys2Proof.Machine.execRegWrite sp s
  | .irqMask sp => Sys2Proof.Machine.execIrqMask sp s
  | .irqUnmask sp => Sys2Proof.Machine.execIrqUnmask sp s
  | .irqWait sp => Sys2Proof.Machine.execIrqWait sp s
  | .dmaOpen e => Sys2Proof.Machine.execDmaOpen e s
  | .dmaWrite e cyc cnf => Sys2Proof.Machine.execDmaWrite e cyc cnf s
  | .dmaRead e => Sys2Proof.Machine.execDmaRead e s
  | .dmaClose e => Sys2Proof.Machine.execDmaClose e s
  | .codecEncode e => Sys2Proof.Machine.execCodecEncode e s
  | .codecDecode e => Sys2Proof.Machine.execCodecDecode e s
  | .codecCrc e => Sys2Proof.Machine.execCodecCrc e s
  | .txInit => Sys2Proof.Machine.execTxInit s
  | .txReset => Sys2Proof.Machine.execTxReset s
  | .txWrite => Sys2Proof.Machine.execTxWrite s
  | .txClose => Sys2Proof.Machine.execTxClose s
  | .txSetMtu => Sys2Proof.Machine.execTxSetMtu s
  | .rxInit => Sys2Proof.Machine.execRxInit s
  | .rxReset => Sys2Proof.Machine.execRxReset s
  | .rxStart => Sys2Proof.Machine.execRxStart s
  | .rxStop => Sys2Proof.Machine.execRxStop s
  | .rxReceive => Sys2Proof.Machine.execRxReceive s
  | .rxRead => Sys2Proof.Machine.execRxRead s
  | .rxClose => Sys2Proof.Machine.execRxClose s

end Sys2Proof.Machine
end

