-- ==== Sys2Proof/Machine/Worker.lean ====
section
/-! DEFINITION. The RX interrupt worker `RXW` (R830 to R837), one atomic step at a time. -/

namespace Sys2Proof.Machine

/-- `pc[RXW] <- l`. -/
def State.wgoto (s : State) (l : WLabel) : State := { s with worker := { s.worker with pc := l } }

/-- `fatal(code)`: `worker_ret <- code; goto WX`, in the step of the failing test (R830, R836). -/
def State.fatal (s : State) (st : Status) : State :=
  { s with rx := { s.rx with workerRet := st.code } }.wgoto .wx

/-- W3: the interrupt wait and its completion step (R407, R830). -/
def wWait (s : State) : State :=
  match s.irqWait .mrx s.worker.t0 s.cfg.rxIrqTimeoutMs with
  | none => s
  | some (r, s') => { s' with worker := { s'.worker with r := r, pc := .w4 } }

/-- W4 after a timeout: only timeouts before the first frame count against the budget (R831). -/
def wTimeout (s : State) : State :=
  if s.rx.count = 0#32 then
    let s' := { s with rx := { s.rx with tmoCount := s.rx.tmoCount + 1 } }
    if s.cfg.rxIrqRetries < s.rx.tmoCount + 1 then s'.fatal .rxTimeout else s'.wgoto .w1
  else s.wgoto .w1

/-- W4 (R830). -/
def wWoke (s : State) : State :=
  if s.rx.done then s.wgoto .wx
  else
    match s.worker.r with
    | .error => s.fatal .rxIrqError
    | .none => wTimeout s
    | .pending => s.wgoto .w5

/-- W5: the reported length (R832). -/
def wLength (s : State) : State :=
  let len := s.regRead (.mrx .payloadLen)
  if lenInvalid s.cfg len then s.fatal .rxFrameInvalid
  else { s with worker := { s.worker with len := len, pc := .w6 } }

/-- W6: the table's capacity, and the offset (R830, R841). -/
def wPlace (s : State) : State :=
  if s.rx.count.toNat = s.cfg.tableCap then s.fatal .rxOverflow
  else
    { s with worker :=
      { s.worker with
        off := s.rx.nextOff, pc := .w7 .d1
        dma := { off := s.rx.nextOff, size := s.worker.len, cyc := false, cnf := true } } }

/-- W7: a step of `DmaRead(RX, o, L)`; a size error is reported as an overflow (R830, R833). -/
def wRead (l : DmaLabel) (s : State) : State :=
  match dmaStep .rx l s.worker.dma s with
  | .go l' d s' => { s' with worker := { s'.worker with dma := d, pc := .w7 l' } }
  | .ret .ok _ s' => s'.wgoto .w8
  | .ret .eSize _ s' => s'.fatal .rxOverflow
  | .ret st _ s' => s'.fatal st
  | .blocked => s

/-- W8: publish, in one atomic step, unless `done` has been set (R834, R835). -/
def wPublish (s : State) : State :=
  if s.rx.done then s.wgoto .wx
  else
    let k := s.rx.count + 1#32
    { s with rx :=
      { s.rx with
        table := Sparse.write s.rx.table s.rx.count.toNat [u32 s.worker.off]
        count := k
        tmoCount := 0
        nextOff := s.worker.off + advance s.cfg s.worker.len.toNat k.toNat } }.wgoto .w1

/-- One step of the worker; a dead worker has none (R830, R837). -/
def workerStep (s : State) : State :=
  match s.worker.pc with
  | .dead => s
  | .w1 => if s.rx.done then s.wgoto .wx else s.wgoto .w2
  | .w2 => { s.irqUnmask .mrx with worker := { s.worker with t0 := s.timeMs, pc := .w3 } }
  | .w3 => wWait s
  | .w4 => wWoke s
  | .w5 => wLength s
  | .w6 => wPlace s
  | .w7 l => wRead l s
  | .w8 => wPublish s
  | .wx => (s.irqMask .mrx).wgoto .dead

end Sys2Proof.Machine
end

