-- ==== Sys2Proof/Machine/Agents.lean ====
section
/-! DEFINITION. The agents of R15 as moves: the host's actions (R17) with the issue of a command word (R18), a
channel's step, the reset event (R1001), the latch rule at the end of every step (R408), and the choice of the
next move (R16). -/

namespace Sys2Proof.Machine

/-! ## The host (R17, R18) -/

/-- The first label of a command's procedure (R18). -/
def firstLabel : Instr → Label
  | .regRead _ => .regRead
  | .regWrite _ => .regWrite
  | .irqMask _ => .irqMask
  | .irqUnmask _ => .irqUnmask
  | .irqWait _ => .irqWait
  | .dmaOpen _ => .dmaOpen
  | .dmaWrite _ _ _ => .dma .d1
  | .dmaRead _ => .dma .d1
  | .dmaClose _ => .dcl1
  | .codecEncode _ => .enc1
  | .codecDecode _ => .dec1
  | .codecCrc _ => .crc1
  | .txInit => .txInit
  | .txReset => .tr1
  | .txWrite => .tw1
  | .txClose => .tcl1
  | .txSetMtu => .txSetMtu
  | .rxInit => .rxInit
  | .rxReset => .rr1
  | .rxStart => .rxStart
  | .rxStop => .rp1
  | .rxReceive => .rv1
  | .rxRead => .rd1
  | .rxClose => .rc1

/-- A command taken by its idle channel: busy, the word in `CMD`, the operands latched, `pc` at the first step; a
wait that begins with the command begins now (R18, R20, R102). -/
def State.begin (s : State) (i : Instr) (w : U32) : State :=
  let c := i.channel
  { s.setChan c
    { s.chan c with
      busy := true, cmd := w, opd := (s.chan c).arg, pc := firstLabel i, loc := { t0 := s.timeMs } }
    with issueStatus := Status.ok.code }

/-- The issue of a command word, one atomic step (R18, R310, R904). -/
def State.issue (s : State) (w : U32) : State :=
  match decode w with
  | .error _ => { s with issueStatus := Status.eIllegal.code }
  | .ok i =>
    if (s.chan i.channel).busy then { s with issueStatus := Status.eBusy.code } else s.begin i w

/-- What a host read of a register returns; `STATUS` and `RES` only while the channel is not busy (R17, R101). -/
def State.hostRead (s : State) : HostReg → Option U32
  | .arg c i => some ((s.chan c).arg.get i)
  | .cmd c => some (s.chan c).cmd
  | .busy c => some (bitWord (s.chan c).busy)
  | .status c => if (s.chan c).busy then none else some (s.chan c).status
  | .res c i => if (s.chan c).busy then none else some ((s.chan c).res.get i)
  | .issueStatus => some s.issueStatus

/-- One step of the `HOST` agent (R17). -/
def hostStep (a : HostAct) (s : State) : Result :=
  match a with
  | .writeArg c i v =>
    if (s.chan c).busy then .next s
    else .next (s.setChan c { s.chan c with arg := (s.chan c).arg.set i v })
  | .issue w => .next (s.issue w)
  | .readReg r =>
    match s.hostRead r with
    | none => .next s
    | some v => .next { s with hostGot := .word v }
  | .readMem a n =>
    if a + n ≤ s.cfg.hostMemSize then .next { s with hostGot := .bytes (s.readMem .hostMem a n) }
    else .fault .hostMemRange
  | .writeMem a bs =>
    if a + bs.length ≤ s.cfg.hostMemSize then .next (s.writeMem .hostMem a bs) else .fault .hostMemRange

/-! ## The channels (R15, R18, R19) -/

/-- One step of a channel: the command its `CMD` register holds, at its label. An idle channel has no step. -/
def channelStep (c : Channel) (s : State) : Result :=
  if (s.chan c).busy = false then .next s
  else
    match decode (s.chan c).cmd with
    | .error _ => .fault .strayLabel
    | .ok i => if i.channel = c then exec i s else .fault .strayLabel

/-! ## Reset (R1001) -/

/-- The reset event: every state element at its reset value, every agent's step abandoned. The model's own fields
(the script, the draws, what the host got) are no part of the block and stay; memory is drawn afresh. -/
def State.resetEvent (s : State) : State :=
  { State.resetOf s.cfg (s.epoch + 1) with
    script := s.script, pick := s.pick, draws := s.draws, hostGot := s.hostGot }

/-! ## One move -/

/-- A move before the latch rule. -/
def moveBody (m : Move) (s : State) : Result :=
  match m with
  | .host a => hostStep a s
  | .channel c p => channelStep c { s with pick := p }
  | .worker p => .next (workerStep { s with pick := p })
  | .dmac e => .next (dmacStep e s)
  | .modemRx len f => .next (modemRxStep len f s)
  | .modemTx => .next s
  | .clock => .next { s with timeMs := s.timeMs + 1 }
  | .reset => .next s.resetEvent

/-- One atomic step of one agent, with the latch rule at its end (R408). -/
def act (m : Move) (s : State) : Result := onNext State.latch (moveBody m s)

/-- The next move and the state without it: the head of the script, or a free move when the script is empty (R16). -/
def State.nextMove (s : State) : Move × State :=
  match s.script with
  | m :: ms => (m, { s with script := ms })
  | [] => (Config.freeMove s.draws, { s with draws := s.draws + 1 })

/-- One step of the machine under a legal configuration; another is refused (R8). -/
def machineStep (s : State) : Result :=
  if s.cfg.wf then act s.nextMove.1 s.nextMove.2 else .refused .badConfig

/-! ## A command placed as the next thing that runs -/

/-- The state whose very next step runs the command word `w`: the word taken by its channel and the channel's move at
the head of the script; a word that spells no command is placed as an issue (log 6). -/
def State.placeWord (s : State) (w : U32) : State :=
  match decode w with
  | .ok i => { s.begin i w with script := .channel i.channel .expire :: s.script }
  | .error _ => { s with script := .host (.issue w) :: s.script }

end Sys2Proof.Machine
end

