-- ==== Sys2Proof/Machine/Step.lean ====
section
/-! DEFINITION. The step function, and the state that runs a given word next. -/

namespace Sys2Proof.Machine

/-- One step of the machine: one agent's atomic step (R16). -/
def step (s : State) : Host.Outcome State Fault Refusal := machineStep s

/-- `s` with the instruction whose low `nbits` bits are those of `w` (every bit above them 0) as the command that the
very next step runs. -/
def State.withFetchWord (s : State) (nbits w : Nat) : State := s.placeWord (u32 (w % 2 ^ nbits))

end Sys2Proof.Machine
end

