-- ==== Sys2Proof/Safety.lean ====
section
/-! DEFINITION. The terms statements are made in: several steps in a row, which agent has an enabled step (R13, R16),
fair runs (R16), quiescence (R22), recorded faults (R920), and the invariants of the block. -/

namespace Sys2Proof.Machine

/-! ## Several steps in a row -/

/-- `k` steps of one command with no other agent between them; it ends early at a stop. -/
def execTimes (i : Instr) : Nat → State → Result
  | 0, s => .next s
  | k + 1, s =>
    match exec i s with
    | .next t => execTimes i k t
    | .fault r => .fault r
    | .refused r => .refused r

/-- A schedule: the moves in order, each with the latch rule at its end; it ends early at a stop. -/
def actAll : List Move → State → Result
  | [], s => .next s
  | m :: ms, s =>
    match act m s with
    | .next t => actAll ms t
    | .fault r => .fault r
    | .refused r => .refused r

/-! ## Schedules in which a DMA command meets no other agent than its controller -/

/-- A confirmed write: the twelve steps to the submit, SOT,
its wake and acknowledgement, the completion, its wake and acknowledgement, the poll and the return. -/
def dmaWriteSchedule : List Move :=
  List.replicate 12 (.channel .tx .wake) ++ [.dmac .tx] ++ List.replicate 4 (.channel .tx .wake) ++ [.dmac .tx] ++
    List.replicate 6 (.channel .tx .wake)

/-- As `dmaWriteSchedule`, for a read: the completion falls between the acknowledgement of SOT and the test of the
completion bitmap, which then cuts the wait for EOT short. -/
def dmaReadSchedule : List Move :=
  List.replicate 12 (.channel .rx .wake) ++ [.dmac .rx] ++ List.replicate 4 (.channel .rx .wake) ++ [.dmac .rx] ++
    List.replicate 3 (.channel .rx .wake)

/-- A write without confirmation: it returns after SOT, with its transfer still queued. -/
def dmaWriteUnconfirmedSchedule : List Move :=
  List.replicate 12 (.channel .tx .wake) ++ [.dmac .tx] ++ List.replicate 5 (.channel .tx .wake)

/-- A write without confirmation whose wait for SOT times out after `T` milliseconds: it returns all the same. -/
def dmaWriteUnconfirmedTimeoutSchedule (T : Nat) : List Move :=
  List.replicate 13 (.channel .tx .wake) ++ List.replicate T .clock ++ [.channel .tx .expire, .channel .tx .wake]

/-- A confirmed write whose two waits time out after `T` milliseconds each: the poll sees the completion. -/
def dmaWriteTimeoutSchedule (T : Nat) : List Move :=
  List.replicate 13 (.channel .tx .wake) ++ List.replicate T .clock ++ [.channel .tx .expire, .channel .tx .wake] ++
    List.replicate T .clock ++ [.channel .tx .expire, .dmac .tx, .dmac .tx] ++ List.replicate 2 (.channel .tx .wake)

/-- A read whose two waits time out after `T` milliseconds each. -/
def dmaReadTimeoutSchedule (T : Nat) : List Move :=
  List.replicate 13 (.channel .rx .wake) ++ List.replicate T .clock ++ [.channel .rx .expire] ++
    List.replicate 2 (.channel .rx .wake) ++ List.replicate T .clock ++ [.channel .rx .expire, .dmac .rx, .dmac .rx] ++
    List.replicate 2 (.channel .rx .wake)

/-- How a command runs a step of a DMA procedure: it goes on under its own label, does what follows the return of a value,
raises any other status, or stays (R506, R508, R714, R715, R717, R718). -/
def DmaNext.runAs (x : DmaNext) (c : Channel) (mk : DmaLabel → Label) (returned : U32 → State → State) (s : State) :
    State :=
  match x with
  | .go l d t => t.gotoWith c (mk l) { (t.chan c).loc with dma := d }
  | .ret .ok v t => returned v t
  | .ret st _ t => t.raise c st
  | .blocked => s

/-! ## Observations -/

/-- `TXSTREAM`: the `TxStream` events of `LOG`, with their cyclic flags (R170). -/
def State.txStream (s : State) : List (List Byte × Bool) :=
  s.log.filterMap fun e =>
    match e with
    | .txStream bs cyc => some (bs, cyc)
    | .crcEvent _ _ => none
    | .throttlePause _ => none

/-- No sticky fault is recorded (R920): the premise of every claim about good runs. -/
def State.noFault (s : State) : Prop := s.faultDmaWild = false ∧ s.faultBufRace = false

/-- The part of quiescence that a state shows (R22): no channel is busy, the worker is dead, no transfer is queued, a
cyclic one included. That the host issues nothing more is `Run.hostSilentFrom`. -/
def State.quiescent (s : State) : Prop :=
  s.chTx.busy = false ∧ s.chRx.busy = false ∧ s.chBus.busy = false ∧ s.worker.pc = .dead ∧ s.dtx.queue = [] ∧
    s.drx.queue = []

/-! ## Enabled steps (R13, R15, R20)

`…Takes` asks whether the agent takes an enabled step when it moves with a pick: at a wait, whether the completion that the
pick names is enabled. An agent has an enabled step when it takes one with some pick. -/

/-- The picked completion of an interrupt wait begun at `t0` is enabled (R407). -/
def State.irqWaitTakes (s : State) (sp : Space) (t0 timeout : Nat) : Pick → Bool
  | .wake => (s.line sp).latched
  | .expire => s.expired (t0 + timeout) (s.line sp).latched
  | .fail => s.cfg.busMayFail

/-- A DMA procedure's step is enabled: only its interrupt wait can have to wait (R509). -/
def State.dmaTakes (s : State) (e : Engine) (l : DmaLabel) (d : DmaLocals) (p : Pick) : Bool :=
  match l with
  | .wp3 => s.irqWaitTakes e.space d.t0 s.cfg.dmaIrqTimeoutMs p
  | .d1 | .d2 | .d3 | .d4 | .d5 | .d6 | .d7 | .d8 | .d9 | .d10 | .d11 | .d12 => true
  | .wp1 | .wp2 | .wp4 | .wp5 | .pd1 | .back => true

/-- The picked completion of a wait for a predicate with an absolute deadline is enabled (R20). -/
def State.deadlineTakes (s : State) (deadline : Nat) (predicate : Bool) : Pick → Bool
  | .wake => predicate
  | .expire => s.expired deadline predicate
  | .fail => false

/-- The step of a busy channel at a label is enabled: false only at a wait. The command is needed for the space of
`IRQ.WAIT` and the engine of a DMA procedure. -/
def State.labelTakes (s : State) (c : Channel) (i : Instr) (p : Pick) : Bool :=
  let x := s.chan c
  match x.pc with
  | .irqWait =>
    match i with
    | .irqWait sp => s.irqWaitTakes sp x.loc.t0 x.opd.a0.toNat p
    | _ => true
  | .dma l =>
    match i with
    | .dmaWrite .tx _ _ => s.dmaTakes .tx l x.loc.dma p
    | .dmaRead .rx => s.dmaTakes .rx l x.loc.dma p
    | _ => true
  | .tsFlush l | .tbFlush l | .tbEobf l => s.dmaTakes .tx l x.loc.dma p
  | .tbPause => s.deadlineTakes (x.loc.t0 + s.cfg.bpPauseMs) false p
  | .rv2 | .rd2 | .rc3 => !s.workerAlive
  | .rv5 => s.deadlineTakes x.loc.deadline (decide (1#32 ≤ s.rx.count) || decide (s.rx.workerRet ≠ 0#32)) p
  | .rv9 => s.deadlineTakes x.loc.deadline (decide (x.loc.c0 < s.rx.count) || decide (s.rx.workerRet ≠ 0#32)) p
  | _ => true

/-- The step of a channel is enabled: it is busy, and its command at its label is. -/
def State.channelTakes (s : State) (c : Channel) (p : Pick) : Bool :=
  (s.chan c).busy &&
    match decode (s.chan c).cmd with
    | .ok i => s.labelTakes c i p
    | .error _ => true

/-- The worker's step is enabled. -/
def State.workerTakes (s : State) (p : Pick) : Bool :=
  match s.worker.pc with
  | .dead => false
  | .w3 => s.irqWaitTakes .mrx s.worker.t0 s.cfg.rxIrqTimeoutMs p
  | .w7 l => s.dmaTakes .rx l s.worker.dma p
  | .w1 | .w2 | .w4 | .w5 | .w6 | .w8 | .wx => true

/-- The stream side of an engine is ready to move a transfer (R543). -/
def State.streamReady (s : State) : Engine → Bool
  | .tx => !s.mtx.reset.getLsbD 0
  | .rx => !s.mrx.rxq.isEmpty

/-- A DMA controller's step is enabled (R540, R542, R543). -/
def State.dmacEnabled (s : State) (e : Engine) : Bool :=
  match (s.dmac e).queue with
  | [] => false
  | r :: _ => (s.dmac e).enabled && (!r.started || s.streamReady e)

/-- `MODEM_RX` may append an entry (R850). -/
def State.modemRxEnabled (s : State) : Bool :=
  s.mrx.rxEnable.getLsbD 0 && !s.mrx.reset.getLsbD 0 && decide (s.mrx.rxq.length < s.cfg.rxqDepth)

/-- The move is an enabled step of its agent; a move that is none stands still (log 7). The reset event is no agent's,
and always possible. -/
def State.takes (s : State) : Move → Bool
  | .host _ => true
  | .channel c p => s.channelTakes c p
  | .worker p => s.workerTakes p
  | .dmac e => s.dmacEnabled e
  | .modemRx _ _ => s.modemRxEnabled
  | .modemTx => false
  | .clock => true
  | .reset => true

/-- Some pick has the property. -/
def anyPick (f : Pick → Bool) : Bool := f .wake || f .expire || f .fail

/-- An agent has an enabled step (R15, R16): some move of it is one. -/
def State.agentEnabled (s : State) : Agent → Bool
  | .host => true
  | .channel c => anyPick (s.channelTakes c)
  | .rxw => anyPick s.workerTakes
  | .dmac e => s.dmacEnabled e
  | .modemRx => s.modemRxEnabled
  | .modemTx => false
  | .clock => true

/-! ## Runs (R16, R22, R1041) -/

/-- An endless run: the states, the moves, and that each move leads on. A run that stops stands still for ever. -/
structure Run where
  state : Nat → State
  move : Nat → Move
  goes : ∀ n, act (move n) (state n) = .next (state (n + 1))

/-- The agents that `DMAC_FAIR` covers (R16). -/
def fairAgent : Agent → Bool
  | .channel _ | .rxw | .dmac _ | .clock => true
  | .host | .modemRx | .modemTx => false

/-- The agent takes an enabled step at move `n`. -/
def Run.stepsAt (r : Run) (a : Agent) (n : Nat) : Prop := (r.move n).agent = some a ∧ (r.state n).takes (r.move n) = true

/-- Weak fairness (R16): no covered agent is enabled for ever from some point on without taking an enabled step. A move
that names the agent and stands still is no step. -/
def Run.weaklyFair (r : Run) : Prop :=
  ∀ a : Agent, fairAgent a = true → ∀ n, ∃ m, n ≤ m ∧ (r.stepsAt a m ∨ (r.state m).agentEnabled a = false)

/-- The runs a parameter setting admits: all, or with `DMAC_FAIR` the weakly fair ones (R16). -/
def Run.admitted (r : Run) : Prop := (r.state 0).cfg.dmacFair = true → r.weaklyFair

/-- The environment premise of a claim that a command sequence ends (R1041): from move `n` on, the TX IP core is out of
reset, and where a transfer of engine RX is queued `MODEM_RX` supplies a frame sooner or later. -/
def Run.streamsServedFrom (r : Run) (n : Nat) : Prop :=
  (∀ k, n ≤ k → (r.state k).streamReady .tx = true) ∧
    ∀ k, n ≤ k → (r.state k).drx.queue ≠ [] → ∃ m, k ≤ m ∧ (r.state m).streamReady .rx = true

/-- From move `n` on the host issues nothing more (R22). Its other actions reach no command. -/
def Run.hostSilentFrom (r : Run) (n : Nat) : Prop := ∀ k, n ≤ k → ∀ w, r.move k ≠ .host (.issue w)

/-- The run is quiescent at its state `n` (R22). -/
def Run.quiescentAt (r : Run) (n : Nat) : Prop := (r.state n).quiescent ∧ r.hostSilentFrom n

/-- The state is a quiescent state that the run reaches: what a claim about a host command sequence is about (R22). -/
def Run.endsIn (r : Run) (t : State) : Prop := ∃ n, r.quiescentAt n ∧ r.state n = t

/-! ## Which labels a command has (R19, R103) -/

/-- The label belongs to the procedure of the command. -/
def ownLabel : Instr → Label → Bool
  | .regRead _, .regRead => true
  | .regWrite _, .regWrite => true
  | .irqMask _, .irqMask => true
  | .irqUnmask _, .irqUnmask => true
  | .irqWait _, .irqWait => true
  | .dmaOpen _, .dmaOpen => true
  | .dmaWrite _ _ _, .dma _ => true
  | .dmaRead _, .dma _ => true
  | .dmaClose _, .dcl1 | .dmaClose _, .dcl2 => true
  | .codecEncode _, .enc1 | .codecEncode _, .enc2 => true
  | .codecDecode _, .dec1 | .codecDecode _, .dec2 => true
  | .codecCrc _, .crc1 => true
  | .txInit, .txInit => true
  | .txReset, .tr1 | .txReset, .tr2 | .txReset, .tr3 | .txReset, .tr4 => true
  | .txWrite, .tw1 | .txWrite, .tw2 | .txWrite, .tsEnc | .txWrite, .tsFlush _ | .txWrite, .tbEnc => true
  | .txWrite, .tbFlush _ | .txWrite, .tbThr | .txWrite, .tbPause | .txWrite, .tbEob | .txWrite, .tbEobf _ => true
  | .txWrite, .twDone => true
  | .txClose, .tcl1 | .txClose, .tcl2 => true
  | .txSetMtu, .txSetMtu => true
  | .rxInit, .rxInit => true
  | .rxReset, .rr1 | .rxReset, .rr2 | .rxReset, .rr3 | .rxReset, .rr4 | .rxReset, .rr5 | .rxReset, .rr6 => true
  | .rxReset, .rr7 | .rxReset, .rr8 | .rxReset, .rr9 | .rxReset, .rr10 | .rxReset, .rr11 | .rxReset, .rr12 => true
  | .rxStart, .rxStart => true
  | .rxStop, .rp1 | .rxStop, .rp2 => true
  | .rxReceive, .rv1 | .rxReceive, .rv2 | .rxReceive, .rv3 | .rxReceive, .rv4 | .rxReceive, .rv5 => true
  | .rxReceive, .rv6 | .rxReceive, .rv7 | .rxReceive, .rv8 | .rxReceive, .rv9 | .rxReceive, .rv10 => true
  | .rxRead, .rd1 | .rxRead, .rd2 | .rxRead, .rd3 | .rxRead, .rd4 | .rxRead, .rd5 => true
  | .rxClose, .rc1 | .rxClose, .rc2 | .rxClose, .rc3 | .rxClose, .rc4 | .rxClose, .rc5 | .rxClose, .rc6 => true
  | .rxClose, .rc7 => true
  | _, _ => false

/-! ## Invariants -/

/-- Every list of pairs is in canonical form. -/
structure State.Canonical (s : State) : Prop where
  bufTx : Memory.wf s.bufTx
  bufRx : Memory.wf s.bufRx
  hostMem : Memory.wf s.hostMem
  table : Sparse.wf s.rx.table
  crcStatus : Sparse.wf s.rx.crcStatus

/-- A DMA controller's registers and queue keep the shape of R131, R132, R540, R541 and R545. -/
structure Dmac.Legal (d : Dmac) (c : Config) : Prop where
  irqMask : d.irqMask.toNat < 4
  irqPending : d.irqPending.toNat < 4
  control : d.control.toNat < 4
  flags : d.flags.toNat < 4
  transferId : d.transferId.toNat < c.numTransferIds
  transferDone : d.transferDone.toNat < 2 ^ c.numTransferIds
  queueLength : d.queue.length ≤ c.numTransferIds
  queueIds : ∀ r ∈ d.queue, r.id.toNat < c.numTransferIds
  onlyHeadStarted : ∀ r ∈ d.queue.tail, r.started = false
  abortedWhenDisabled : d.enabled = false → d.queue = []

/-- The register spaces keep their reserved bits 0 and their queues bounded (R131, R132, R140, R141, R142, R851). -/
structure State.RegsLegal (s : State) : Prop where
  dtx : s.dtx.Legal s.cfg
  drx : s.drx.Legal s.cfg
  mtxReset : s.mtx.reset.toNat < 2
  mrxReset : s.mrx.reset.toNat < 2
  rxEnable : s.mrx.rxEnable.toNat < 2
  bypassCoding : s.mrx.bypassCoding.toNat < 2
  bypassEq : s.mrx.bypassEq.toNat < 2
  rxqLength : s.mrx.rxq.length ≤ s.cfg.rxqDepth
  rxqReset : s.mrx.reset.getLsbD 0 = true → s.mrx.rxq = []

/-- No line is unmasked while its level is high, and the line without a source is never latched (R150, R408, R413). -/
structure State.LinesSettled (s : State) : Prop where
  masked : ∀ sp, s.level sp = true → (s.line sp).masked = true
  mtxQuiet : s.lines.mtx.latched = false

/-- A channel is idle, or busy with a command of its own at a label of that command (R18, R19, R101, R103). -/
def Chan.Labelled (x : Chan) (c : Channel) : Prop :=
  (x.busy = false ∧ x.pc = .idle) ∨
    (x.busy = true ∧ ∃ i, decode x.cmd = .ok i ∧ i.channel = c ∧ ownLabel i x.pc = true)

/-- Every channel is labelled. -/
def State.Labelled (s : State) : Prop := ∀ c, (s.chan c).Labelled c

/-- The label is one of `RX.RECEIVE` after the worker has been spawned: RV5 to RV10. -/
def Label.receiving : Label → Bool
  | .rv5 | .rv6 | .rv7 | .rv8 | .rv9 | .rv10 => true
  | _ => false

/-- `rx_state` follows the consumer's label, and `done` is clear exactly while a cycle is received (R815, R860). -/
structure State.PhaseFollowsConsumer (s : State) : Prop where
  arming : s.rx.state = .arming ↔ s.chRx.pc = .rv4
  receiving : s.rx.state = .receiving ↔ s.chRx.pc.receiving = true
  notDone : s.rx.done = false ↔ s.chRx.pc.receiving = true

/-- The labels of `CH_RX` at which a procedure has found the worker dead and relies on it. -/
def Label.needsDeadWorker : Label → Bool
  | .dcl2 | .enc2 | .dec2 => true
  | .dma l => decide (l ≠ .d1)
  | .rr2 | .rr3 | .rr4 | .rr5 | .rr6 | .rr7 | .rr8 | .rr9 | .rr10 | .rr11 | .rr12 => true
  | .rv3 | .rv4 | .rd3 | .rd4 | .rd5 | .rc4 | .rc5 | .rc6 | .rc7 => true
  | _ => false

/-- The worker owns the RX engine while it lives (R110, R513, R810, R830). `DMA.WRITE` with `ENG = 1` never gets
past its first step, so a `dma` label of `CH_RX` beyond `d1` is `DMA.READ`'s. -/
structure State.WorkerOwns (s : State) : Prop where
  deadWhereNeeded : s.chRx.pc.needsDeadWorker = true → s.worker.pc = .dead
  openWhileAlive : s.worker.pc ≠ .dead → s.openRx = true ∧ s.rx.inited = true
  openWhileArming : s.chRx.pc = .rv2 ∨ s.chRx.pc = .rv3 ∨ s.chRx.pc = .rv4 → s.openRx = true ∧ s.rx.inited = true

/-- The worker stands in its DMA read past the size check, or at its publish step: the frame it reads fits. -/
def WLabel.frameFits : WLabel → Bool
  | .w7 l => decide (l ≠ .d1)
  | .w8 => true
  | _ => false

/-- The worker is about to read, or reads, or is about to publish a frame. -/
def WLabel.framePlaced : WLabel → Bool
  | .w7 _ | .w8 => true
  | _ => false

/-- The table, the counter and the running offset agree (R211, R840, R841), and what the worker and the consumer carry
between their steps supports it. -/
structure State.TableOrdered (s : State) : Prop where
  countBound : s.rx.count.toNat ≤ s.cfg.tableCap
  tableBound : ∀ p ∈ s.rx.table, p.1 < s.cfg.tableCap
  published : ∀ j, j < s.rx.count.toNat → (Sparse.get? s.rx.table j).isSome = true
  firstAtZero : 0 < s.rx.count.toNat → s.tableAt 0 = 0#32
  increasing : ∀ j, j + 1 < s.rx.count.toNat → (s.tableAt j).toNat < (s.tableAt (j + 1)).toNat
  entryInBuffer : ∀ j, j < s.rx.count.toNat → (s.tableAt j).toNat < s.cfg.bufSizeRx
  lastBelowNext : s.worker.pc ≠ .dead → 0 < s.rx.count.toNat →
    (s.tableAt (s.rx.count.toNat - 1)).toNat < s.rx.nextOff
  startAtZero : s.worker.pc ≠ .dead → s.rx.count = 0#32 → s.rx.nextOff = 0
  armed : s.chRx.pc = .rv4 → s.rx.count = 0#32 ∧ s.rx.nextOff = 0
  lengthLegal : s.worker.pc = .w6 ∨ s.worker.pc.framePlaced = true → s.worker.len ≠ 0#32
  placed : s.worker.pc.framePlaced = true →
    s.worker.off = s.rx.nextOff ∧ s.worker.dma.off = s.worker.off ∧ s.worker.dma.size = s.worker.len ∧
      s.rx.count.toNat < s.cfg.tableCap
  fits : s.worker.pc.frameFits = true → s.worker.off + s.worker.len.toNat ≤ s.cfg.bufSizeRx
  counted : s.chRx.pc = .rv7 ∨ s.chRx.pc = .rv8 ∨ s.chRx.pc = .rv9 ∨ s.chRx.pc = .rv10 → 0 < s.rx.count.toNat

/-- The worker's code is 0 while it works, and its timeouts stay within the budget (R161, R831, R836). -/
structure State.WorkerHealthy (s : State) : Prop where
  codeZero : s.worker.pc ≠ .dead → s.worker.pc ≠ .wx → s.rx.workerRet = 0#32
  budget : s.worker.pc ≠ .dead → s.worker.pc ≠ .wx → s.rx.tmoCount ≤ s.cfg.rxIrqRetries
  armed : s.chRx.pc = .rv4 → s.rx.workerRet = 0#32 ∧ s.rx.tmoCount = 0

/-- `frame i` of a packet being built: its index, its offset, and the fit of the whole packet (R711, R713). -/
def State.packetInRange (s : State) (x : Locals) : Prop :=
  0 < x.m ∧ 0 < x.n ∧ x.nf = ceilDiv x.n x.m ∧ x.i < x.nf ∧ x.off = x.i * footprint s.cfg x.m ∧
    x.nf * footprint s.cfg x.m < s.cfg.bufSizeTx

/-- What a channel of an engine carries between its steps supports the bounds of R206. -/
structure State.LocalsInRange (s : State) : Prop where
  encodeTx : s.chTx.pc = .enc2 → s.chTx.loc.payload.length = s.chTx.opd.a2.toNat ∧
    s.chTx.opd.a0.toNat + footprint s.cfg s.chTx.opd.a2.toNat ≤ s.cfg.bufSizeTx
  encodeRx : s.chRx.pc = .enc2 → s.chRx.loc.payload.length = s.chRx.opd.a2.toNat ∧
    s.chRx.opd.a0.toNat + footprint s.cfg s.chRx.opd.a2.toNat ≤ s.cfg.bufSizeRx
  plan : s.chTx.pc = .tw2 → 0 < s.chTx.loc.n
  build : s.chTx.pc = .tsEnc ∨ s.chTx.pc = .tbEnc ∨ s.chTx.pc = .tbThr ∨ s.chTx.pc = .tbPause →
    s.packetInRange s.chTx.loc
  flush : ∀ l, s.chTx.pc = .tbFlush l → s.packetInRange s.chTx.loc
  read : s.chRx.pc = .rd4 → s.chRx.loc.cur ≤ s.chRx.opd.a1.toNat ∧
    s.chRx.opd.a0.toNat + s.chRx.opd.a1.toNat ≤ s.cfg.hostMemSize

/-- No byte outside a byte space has ever been written (R201, R206). -/
structure State.BytesInBounds (s : State) : Prop where
  bufTx : Memory.within s.bufTx s.cfg.bufSizeTx
  bufRx : Memory.within s.bufRx s.cfg.bufSizeRx
  hostMem : Memory.within s.hostMem s.cfg.hostMemSize
  locals : s.LocalsInRange

/-- No channel and no worker shows the reserved status `E_TIMEOUT` (R511). -/
structure State.NeverTimeout (s : State) : Prop where
  status : ∀ c, (s.chan c).status ≠ Status.eTimeout.code
  workerRet : s.rx.workerRet ≠ Status.eTimeout.code

/-! ## Transfers that the engine procedures program (R202, R504) -/

/-- The offset and size of a DMA procedure that has passed its checks. -/
def dmaChecked (c : Config) (e : Engine) (off : Nat) (size : U32) : Prop :=
  0 < s32 size ∧ (off : Int) + s32 size ≤ (c.bufSize e : Int)

/-- The label stands after the step `d7` that programs the address, up to the submit. -/
def DmaLabel.addressSet : DmaLabel → Bool
  | .d8 | .d9 | .d10 | .d11 | .d12 => true
  | _ => false

/-- The label stands after the step `d9` that programs the row length, up to the submit. -/
def DmaLabel.lengthSet : DmaLabel → Bool
  | .d10 | .d11 | .d12 => true
  | _ => false

/-- The label stands after the step `d10` that programs the row count, up to the submit. -/
def DmaLabel.rowsSet : DmaLabel → Bool
  | .d11 | .d12 => true
  | _ => false

/-- A DMA procedure at a label: past its checks, and with the registers it has programmed as it left them. -/
structure Dmac.Programmed (d : Dmac) (c : Config) (e : Engine) (l : DmaLabel) (off : Nat) (size : U32) : Prop where
  checked : l ≠ .d1 → dmaChecked c e off size
  address : l.addressSet = true → d.read (addrReg e) = u32 (c.bufPhys e + off)
  rowLength : l.lengthSet = true → d.xLength = size - 1#32
  rows : l.rowsSet = true → d.yLength = 0#32

/-- Every queued transfer lies in its buffer's window, every procedure under way programs such a one, and no wild
transfer has been recorded (R202). -/
structure State.Tame (s : State) : Prop where
  queueTx : ∀ r ∈ s.dtx.queue, r.inside s.cfg .tx = true
  queueRx : ∀ r ∈ s.drx.queue, r.inside s.cfg .rx = true
  commandTx : ∀ l, s.chTx.pc = .dma l → s.dtx.Programmed s.cfg .tx l s.chTx.opd.a0.toNat s.chTx.opd.a1
  commandRx : ∀ l, s.chRx.pc = .dma l → s.drx.Programmed s.cfg .rx l s.chRx.opd.a0.toNat s.chRx.opd.a1
  flushTx : ∀ l, s.chTx.pc = .tsFlush l ∨ s.chTx.pc = .tbFlush l ∨ s.chTx.pc = .tbEobf l →
    s.dtx.Programmed s.cfg .tx l s.chTx.loc.dma.off s.chTx.loc.dma.size
  readRx : ∀ l, s.worker.pc = .w7 l → s.drx.Programmed s.cfg .rx l s.worker.dma.off s.worker.dma.size
  noWild : s.faultDmaWild = false

/-- The channel is about to write a register of a DMA controller for the host (R411, R1021). -/
def State.hostWritesController (s : State) : Prop :=
  s.chBus.busy = true ∧ ∃ sp, decode s.chBus.cmd = .ok (.regWrite sp) ∧ (sp = .dtx ∨ sp = .drx)

/-! ## Reset values (R1001) -/

/-- Every state element has the value R1001 gives it after reset; a byte, table entry or verdict that R1001 leaves
unspecified is listed nowhere, so that reading it is a free draw. `hdr0`, the locals and the latched operands have no
stated value. -/
structure State.AtReset (s : State) : Prop where
  arguments : ∀ c i, (s.chan c).arg.get i = 0#32
  results : ∀ c i, (s.chan c).res.get i = 0#32
  command : ∀ c, (s.chan c).cmd = 0#32
  busy : ∀ c, (s.chan c).busy = false
  status : ∀ c, (s.chan c).status = 0#32
  issueStatus : s.issueStatus = 0#32
  label : ∀ c, (s.chan c).pc = .idle
  worker : s.worker.pc = .dead
  closed : ∀ e, s.isOpen e = false
  bytes : ∀ sp, s.space sp = []
  dmacMask : ∀ e, (s.dmac e).irqMask = 0x3#32
  dmacOther : ∀ e r, r ≠ .irqMask → (s.dmac e).read r = 0#32
  dmacQueue : ∀ e, (s.dmac e).queue = []
  mtx : ∀ r, s.mtx.read r = 0#32
  mrx : ∀ r, s.mrx.read r = 0#32
  rxq : s.mrx.rxq = []
  lines : ∀ l, (s.line l).masked = true ∧ (s.line l).latched = false
  txFramer : s.txInited = false ∧ s.cfgMtu = 0#32 ∧ s.packId = 0#32
  rxFlags : s.rx.inited = false ∧ s.rx.state = .idle ∧ s.rx.configured = false ∧ s.rx.done = true
  rxCounters : s.rx.count = 0#32 ∧ s.rx.nextOff = 0 ∧ s.rx.workerRet = 0#32 ∧ s.rx.tmoCount = 0
  rxUnspecified : s.rx.table = [] ∧ s.rx.crcStatus = []
  time : s.timeMs = 0
  log : s.log = []
  faults : s.noFault

/-! ## What a register write leaves in the register (R403) -/

/-- The value a register reads after a write of `v` to it, given the value it read before (R131, R140, R141, R403). -/
def writtenValue : Reg → (old v : U32) → U32
  | .dmac _ .irqMask, _, v => v &&& 0x3#32
  | .dmac _ .irqPending, old, v => old &&& ~~~(v &&& 0x3#32)
  | .dmac _ .control, _, v => v &&& 0x3#32
  | .dmac _ .transferId, old, _ => old
  | .dmac _ .transferSubmit, _, _ => 0#32
  | .dmac _ .flags, _, v => v &&& 0x3#32
  | .dmac _ .destAddress, _, v => v
  | .dmac _ .srcAddress, _, v => v
  | .dmac _ .xLength, _, v => v
  | .dmac _ .yLength, _, v => v
  | .dmac _ .destStride, _, v => v
  | .dmac _ .srcStride, _, v => v
  | .dmac _ .transferDone, old, _ => old
  | .mtx .reset, _, v => v &&& 0x1#32
  | .mtx .txSrcSel, _, v => v
  | .mrx .reset, _, v => v &&& 0x1#32
  | .mrx .rxEnable, _, v => v &&& 0x1#32
  | .mrx .loopBw, _, v => v
  | .mrx .eqGain, _, v => v
  | .mrx .bypassCoding, _, v => v &&& 0x1#32
  | .mrx .bypassEq, _, v => v &&& 0x1#32
  | .mrx .detThresh, _, v => v
  | .mrx .payloadLen, old, _ => old
  | .mrx (.frCoef _), _, v => v

/-! ## Which registers exist, and where (R131, R140, R141, R404) -/

/-- The space of a register. -/
def Reg.space : Reg → Space
  | .dmac e _ => e.space
  | .mtx _ => .mtx
  | .mrx _ => .mrx

/-- The offset that the register maps of R8 give a register. -/
def offsetOf (c : Config) : Reg → U32
  | .dmac _ .irqMask => c.dmacMap.irqMask
  | .dmac _ .irqPending => c.dmacMap.irqPending
  | .dmac _ .control => c.dmacMap.control
  | .dmac _ .transferId => c.dmacMap.transferId
  | .dmac _ .transferSubmit => c.dmacMap.transferSubmit
  | .dmac _ .flags => c.dmacMap.flags
  | .dmac _ .destAddress => c.dmacMap.destAddress
  | .dmac _ .srcAddress => c.dmacMap.srcAddress
  | .dmac _ .xLength => c.dmacMap.xLength
  | .dmac _ .yLength => c.dmacMap.yLength
  | .dmac _ .destStride => c.dmacMap.destStride
  | .dmac _ .srcStride => c.dmacMap.srcStride
  | .dmac _ .transferDone => c.dmacMap.transferDone
  | .mtx .reset => c.modemTxMap.reset
  | .mtx .txSrcSel => c.modemTxMap.txSrcSel
  | .mrx .reset => c.modemRxMap.reset
  | .mrx .rxEnable => c.modemRxMap.rxEnable
  | .mrx .loopBw => c.modemRxMap.loopBw
  | .mrx .eqGain => c.modemRxMap.eqGain
  | .mrx .bypassCoding => c.modemRxMap.bypassCoding
  | .mrx .bypassEq => c.modemRxMap.bypassEq
  | .mrx .detThresh => c.modemRxMap.detThresh
  | .mrx .payloadLen => c.modemRxMap.payloadLen
  | .mrx (.frCoef 0) => c.modemRxMap.frCoef0
  | .mrx (.frCoef 1) => c.modemRxMap.frCoef1
  | .mrx (.frCoef 2) => c.modemRxMap.frCoef2
  | .mrx (.frCoef 3) => c.modemRxMap.frCoef3

/-- The register exists: `FR_COEF[k]` for `k < FR_COEF_COUNT`, every other always (R141). -/
def hasReg (c : Config) : Reg → Prop
  | .mrx (.frCoef k) => k.val < c.frCoefCount
  | _ => True

/-! ## Which moves write `IRQ_PENDING` (R403, R411, R505, R507, R509) -/

/-- What a DMA procedure at a label writes to `IRQ_PENDING` in its next step: all at `d4`, what it saw at `wp5`. -/
def DmaLabel.acknowledges (l : DmaLabel) (d : DmaLocals) : Option U32 :=
  match l with
  | .d4 => some 0x3#32
  | .wp5 => some d.pend
  | _ => none

/-- The value that a move writes to `IRQ_PENDING` of an engine's controller: a host's register write, or a step of a DMA
procedure under way. -/
def State.pendingWrite (s : State) (m : Move) (e : Engine) : Option U32 :=
  match m, e with
  | .channel .bus _, e =>
    if decode s.chBus.cmd = .ok (.regWrite e.space) ∧ regAt s.cfg e.space s.chBus.opd.a0 = some (.dmac e .irqPending)
    then some s.chBus.opd.a1 else none
  | .channel .tx _, .tx =>
    match s.chTx.pc with
    | .dma l | .tsFlush l | .tbFlush l | .tbEobf l => l.acknowledges s.chTx.loc.dma
    | _ => none
  | .channel .rx _, .rx =>
    match s.chRx.pc with
    | .dma l => l.acknowledges s.chRx.loc.dma
    | _ => none
  | .worker _, .rx =>
    match s.worker.pc with
    | .w7 l => l.acknowledges s.worker.dma
    | _ => none
  | _, _ => none

/-! ## What a command may write -/

/-- What one step of a command may write of its own channel: the argument registers, the command word and the latched
operands stay (R101, R102). -/
def Chan.stepped (x y : Chan) : Chan :=
  { x with busy := y.busy, status := y.status, res := y.res, pc := y.pc, loc := y.loc }

/-- The lines outside `own` change by the latch rule at most (R408). -/
def linesKeptBut (own : List Space) (s t : State) : Prop :=
  ∀ l, l ∉ own → t.line l = s.line l ∨ t.line l = (s.line l).latch (t.level l)

/-- What a DMA procedure may write of its controller: the address and stride of the other direction stay (R505, R507). -/
def Dmac.programmed (x : Dmac) (e : Engine) (y : Dmac) : Dmac :=
  match e with
  | .tx => { y with destAddress := x.destAddress, destStride := x.destStride }
  | .rx => { y with srcAddress := x.srcAddress, srcStride := x.srcStride }

/-- What closing may write of a controller: the abort alone (R503, R545). -/
def Dmac.closed (x y : Dmac) : Dmac := { x with control := y.control, queue := y.queue }

/-- What TX commands may write beside their own channel: the parts named here. -/
def writesOnlyTx : Instr → State → State → Prop
  | .dmaOpen _, s, t => t = { s with chTx := t.chTx, openTx := t.openTx }
  | .dmaWrite _ _ _, s, t =>
    t = { s with chTx := t.chTx, dtx := s.dtx.programmed .tx t.dtx, lines := t.lines } ∧ linesKeptBut [.dtx] s t
  | .dmaRead _, s, t => t = { s with chTx := t.chTx }
  | .dmaClose _, s, t =>
    t = { s with chTx := t.chTx, dtx := s.dtx.closed t.dtx, lines := t.lines, openTx := t.openTx } ∧
      linesKeptBut [.dtx] s t
  | .codecEncode _, s, t => t = { s with chTx := t.chTx, bufTx := t.bufTx, faultBufRace := t.faultBufRace }
  | .codecDecode _, s, t => t = { s with chTx := t.chTx }
  | .codecCrc _, s, t => t = { s with chTx := t.chTx }
  | .txInit, s, t =>
    t = { s with chTx := t.chTx, openTx := t.openTx, txInited := t.txInited, cfgMtu := t.cfgMtu, packId := t.packId }
  | .txReset, s, t => t = { s with chTx := t.chTx, mtx := t.mtx, lines := t.lines } ∧ linesKeptBut [] s t
  | .txWrite, s, t =>
    t = { s with chTx := t.chTx, bufTx := t.bufTx, faultBufRace := t.faultBufRace, cfgMtu := t.cfgMtu,
                 packId := t.packId, dtx := s.dtx.programmed .tx t.dtx, lines := t.lines, log := t.log } ∧
      linesKeptBut [.dtx] s t
  | .txClose, s, t =>
    t = { s with chTx := t.chTx, dtx := s.dtx.closed t.dtx, lines := t.lines, openTx := t.openTx,
                 txInited := t.txInited } ∧ linesKeptBut [.dtx] s t
  | .txSetMtu, s, t => t = { s with chTx := t.chTx, cfgMtu := t.cfgMtu }
  | _, _, _ => False

/-- What RX commands may write beside their own channel. -/
def writesOnlyRx : Instr → State → State → Prop
  | .dmaOpen _, s, t => t = { s with chRx := t.chRx, openRx := t.openRx }
  | .dmaWrite _ _ _, s, t => t = { s with chRx := t.chRx }
  | .dmaRead _, s, t =>
    t = { s with chRx := t.chRx, drx := s.drx.programmed .rx t.drx, lines := t.lines } ∧ linesKeptBut [.drx] s t
  | .dmaClose _, s, t =>
    t = { s with chRx := t.chRx, drx := s.drx.closed t.drx, lines := t.lines, openRx := t.openRx } ∧
      linesKeptBut [.drx] s t
  | .codecEncode _, s, t => t = { s with chRx := t.chRx, bufRx := t.bufRx, faultBufRace := t.faultBufRace }
  | .codecDecode _, s, t => t = { s with chRx := t.chRx, faultBufRace := t.faultBufRace }
  | .codecCrc _, s, t => t = { s with chRx := t.chRx, faultBufRace := t.faultBufRace }
  | .rxInit, s, t =>
    t = { s with
      chRx := t.chRx, openRx := t.openRx
      rx := { t.rx with table := s.rx.table, hdr0 := s.rx.hdr0, crcStatus := s.rx.crcStatus } }
  | .rxReset, s, t =>
    t = { s with
      chRx := t.chRx, mrx := t.mrx, lines := t.lines, rx := { s.rx with configured := t.rx.configured } } ∧
      linesKeptBut [] s t
  | .rxStart, s, t =>
    t = { s with chRx := t.chRx, mrx := { s.mrx with rxEnable := t.mrx.rxEnable }, lines := t.lines } ∧
      linesKeptBut [] s t
  | .rxStop, s, t =>
    t = { s with
      chRx := t.chRx, mrx := { s.mrx with rxEnable := t.mrx.rxEnable }, lines := t.lines
      rx := { s.rx with done := t.rx.done } } ∧ linesKeptBut [] s t
  | .rxReceive, s, t =>
    t = { s with
      chRx := t.chRx, worker := t.worker, faultBufRace := t.faultBufRace
      rx := { t.rx with inited := s.rx.inited, table := s.rx.table, crcStatus := s.rx.crcStatus } }
  | .rxRead, s, t =>
    t = { s with
      chRx := t.chRx, hostMem := t.hostMem, log := t.log, faultBufRace := t.faultBufRace
      rx := { s.rx with state := t.rx.state, count := t.rx.count, crcStatus := t.rx.crcStatus } }
  | .rxClose, s, t =>
    t = { s with
      chRx := t.chRx, drx := s.drx.closed t.drx, lines := t.lines, openRx := t.openRx
      rx := { s.rx with inited := t.rx.inited, state := t.rx.state, done := t.rx.done } } ∧
      linesKeptBut [.mrx, .drx] s t
  | _, _, _ => False

/-- What BUS commands may write beside their own channel. -/
def writesOnlyBus : Instr → State → State → Prop
  | .regRead _, s, t => t = { s with chBus := t.chBus }
  | .regWrite .mtx, s, t => t = { s with chBus := t.chBus, mtx := t.mtx, lines := t.lines } ∧ linesKeptBut [] s t
  | .regWrite .mrx, s, t => t = { s with chBus := t.chBus, mrx := t.mrx, lines := t.lines } ∧ linesKeptBut [] s t
  | .regWrite .dtx, s, t => t = { s with chBus := t.chBus, dtx := t.dtx, lines := t.lines } ∧ linesKeptBut [] s t
  | .regWrite .drx, s, t => t = { s with chBus := t.chBus, drx := t.drx, lines := t.lines } ∧ linesKeptBut [] s t
  | .irqMask sp, s, t => t = { s with chBus := t.chBus, lines := s.lines.set sp (t.line sp) }
  | .irqUnmask sp, s, t => t = { s with chBus := t.chBus, lines := t.lines } ∧ linesKeptBut [sp] s t
  | .irqWait sp, s, t => t = { s with chBus := t.chBus, lines := s.lines.set sp (t.line sp) }
  | _, _, _ => False

/-- `t` is `s` but for the parts of the state that one step of the command may write: of its own channel what a step
moves, and beside it what its rule names, field by field (R180). -/
def writesOnly (i : Instr) (s t : State) : Prop :=
  t.chan i.channel = (s.chan i.channel).stepped (t.chan i.channel) ∧
    match i.channel with
    | .tx => writesOnlyTx i s t
    | .rx => writesOnlyRx i s t
    | .bus => writesOnlyBus i s t

/-- Where one step of a command stores bytes: the space, the first address and the number of bytes, computed as the
command computes them (R603, R713, R717, R821); none for a step that stores nothing. -/
def storeRange : Instr → State → Option (ByteSpace × Nat × Nat)
  | .codecEncode e, s =>
    let x := s.chan e.channel
    match x.pc with
    | .enc2 => some (.buf e, x.opd.a0.toNat, footprint s.cfg x.loc.payload.length)
    | _ => none
  | .txWrite, s =>
    match s.chTx.pc with
    | .tsEnc | .tbEnc => some (.buf .tx, s.chTx.loc.off, footprint s.cfg (txFrameSize s.chTx.loc))
    | .tbEob => some (.buf .tx, 0, footprint s.cfg 0)
    | _ => none
  | .rxRead, s =>
    match s.chRx.pc with
    | .rd4 =>
      let o := (s.tableAt s.chRx.loc.j).toNat
      let fs := (s.decodeHdr .rx o).frameSz.toNat
      if s.cfg.bufSizeRx < o + hdrSize ∨ s.cfg.bufSizeRx < o + hdrSize + fs ∨ s.chRx.opd.a1.toNat < s.chRx.loc.cur + fs
      then none
      else some (.hostMem, s.chRx.opd.a0.toNat + s.chRx.loc.cur, fs)
    | _ => none
  | _, _ => none

end Sys2Proof.Machine
end

