-- ==== Sys2Proof/Certificates/Slice0/Obligations.lean ====
section
/-! DEFINITION. The statements for the provers. Each says what a numbered rule of the spec says of the block; an equation
of whole states is also the frame of the step: every part it does not name is unchanged. -/

open Sys2Proof Sys2Proof.Machine

/-! ## Encoding -/

/-- R303, R305: words and commands correspond one to one. -/
def Obligations.DecodeEncodeAgree : Prop :=
  ∀ (w : U32) (i : Instr), decode w = .ok i ↔ w = encode i

/-- R310, with the rows of R305 told apart by their `match` words. -/
def Obligations.WordSpellsCommandByMaskAndMatch : Prop :=
  ∀ w : U32,
    (∀ i : Instr, (∃ j, decode w = .ok j ∧ matchOf j = matchOf i) ↔ w &&& maskOf i = matchOf i) ∧
    (∀ i j : Instr, w &&& maskOf i = matchOf i → w &&& maskOf j = matchOf j → matchOf i = matchOf j) ∧
    ((∀ i : Instr, w &&& maskOf i ≠ matchOf i) → ∀ s : State, s.issue w = { s with issueStatus := Status.eIllegal.code })

/-- Words written out from R302, R303 and R305, one or more of each unit, and words that spell nothing. -/
def Obligations.SampleWordsDecode : Prop :=
  decode 0x01010100#32 = .ok (.regRead .mrx) ∧ decode 0x01020300#32 = .ok (.regWrite .drx) ∧
  decode 0x01050200#32 = .ok (.irqWait .dtx) ∧ decode 0x02020400#32 = .ok (.dmaWrite .tx false true) ∧
  decode 0x02020200#32 = .ok (.dmaWrite .tx true false) ∧ decode 0x02030100#32 = .ok (.dmaRead .rx) ∧
  decode 0x03020100#32 = .ok (.codecDecode .rx) ∧ decode 0x04030000#32 = .ok .txWrite ∧
  decode 0x05050000#32 = .ok .rxReceive ∧ decode 0x04030001#32 = .error (.reservedBits 0x04030001#32) ∧
  decode 0x03040000#32 = .error (.illegalOp 3 4) ∧ decode 0x06010000#32 = .error (.illegalUnit 6)

/-! ## Reset -/

/-- R1001: what reset leaves, at the start and after the reset event, under every configuration. The model's own choices
in it: what R1001 leaves unspecified is listed nowhere (log 8, log 11), and the configuration is kept (log 1, log 10). -/
def Obligations.ResetLeavesStatedValues : Prop :=
  (∀ (c : Config) (n : Nat), (State.resetOf c n).AtReset ∧ (State.resetOf c n).cfg = c) ∧
    ∀ s : State, ∃ t, act .reset s = .next t ∧ t.AtReset ∧ t.cfg = s.cfg

/-- Every invariant stated below holds right after reset, under every configuration; that of the register values under a
legal one. -/
def Obligations.InvariantsHoldAtReset : Prop :=
  ∀ (c : Config) (n : Nat), c.wf = true →
    (State.resetOf c n).Labelled ∧ (State.resetOf c n).Canonical ∧ (State.resetOf c n).RegsLegal ∧
      (State.resetOf c n).LinesSettled ∧ (State.resetOf c n).PhaseFollowsConsumer ∧ (State.resetOf c n).WorkerOwns ∧
      (State.resetOf c n).WorkerHealthy ∧ (State.resetOf c n).TableOrdered ∧ (State.resetOf c n).BytesInBounds ∧
      (State.resetOf c n).Tame ∧ (State.resetOf c n).NeverTimeout

/-! ## Issue, host and steps -/

/-- R18, R904: the routing of a word, the three outcomes of an issue with the first step of each of the 24 procedures, and
`finish` drops `BUSY`. That the wait of `IRQ.WAIT` begins at the issue is the model's reading of R20 and R414 (log 5); what
the other locals hold is not stated (R103). -/
def Obligations.IssueRoutesStartsOrDrops : Prop :=
  let first (i : Instr) : Label :=
    match i with
    | .regRead _ => .regRead
    | .regWrite _ => .regWrite
    | .irqMask _ => .irqMask
    | .irqUnmask _ => .irqUnmask
    | .irqWait _ => .irqWait
    | .dmaOpen _ => .dmaOpen
    | .dmaWrite _ _ _ => .dma .d1
    | .dmaRead _ => .dma .d1
    | .dmaClose _ => .dcl1
    | .codecEncode _ => .enc1
    | .codecDecode _ => .dec1
    | .codecCrc _ => .crc1
    | .txInit => .txInit
    | .txReset => .tr1
    | .txWrite => .tw1
    | .txClose => .tcl1
    | .txSetMtu => .txSetMtu
    | .rxInit => .rxInit
    | .rxReset => .rr1
    | .rxStart => .rxStart
    | .rxStop => .rp1
    | .rxReceive => .rv1
    | .rxRead => .rd1
    | .rxClose => .rc1
  ∀ (s : State) (w : U32),
    (∀ x, decode w = .error x → s.issue w = { s with issueStatus := Status.eIllegal.code }) ∧
    (∀ i, decode w = .ok i →
      i.channel = (if unitField w = 1 then .bus else if unitField w = 4 then .tx else if unitField w = 5 then .rx
        else if w.getLsbD 8 then .rx else .tx) ∧
      ((s.chan i.channel).busy = true → s.issue w = { s with issueStatus := Status.eBusy.code }) ∧
      ((s.chan i.channel).busy = false →
        ∃ x : Locals, (∀ sp, i = .irqWait sp → x.t0 = s.timeMs) ∧ s.issue w =
          { s.setChan i.channel
            { s.chan i.channel with
              busy := true, cmd := w, opd := (s.chan i.channel).arg, pc := first i, loc := x } with
            issueStatus := Status.ok.code })) ∧
    ∀ c st vs, ((s.finish c st vs).chan c).busy = false

/-- R17, R101: what the host may do, one step each; no other part of the block is touched. What a read returns stands in
`hostGot`, a field of the model's own, and a read of `STATUS` or `RES` of a busy channel changes nothing (log 15). -/
def Obligations.HostActsAsAllowed : Prop :=
  ∀ s : State,
    (∀ c i v, (s.chan c).busy = false → ∃ a : Operands,
      hostStep (.writeArg c i v) s = .next (s.setChan c { s.chan c with arg := a }) ∧
        ∀ j, a.get j = if j = i then v else (s.chan c).arg.get j) ∧
    (∀ c i v, (s.chan c).busy = true → hostStep (.writeArg c i v) s = .next s) ∧
    (∀ w, hostStep (.issue w) s = .next (s.issue w)) ∧
    (∀ c, (s.chan c).busy = false →
      hostStep (.readReg (.status c)) s = .next { s with hostGot := .word (s.chan c).status } ∧
        ∀ i, hostStep (.readReg (.res c i)) s = .next { s with hostGot := .word ((s.chan c).res.get i) }) ∧
    (∀ c, (s.chan c).busy = true →
      hostStep (.readReg (.status c)) s = .next s ∧ ∀ i, hostStep (.readReg (.res c i)) s = .next s) ∧
    (∀ c i, hostStep (.readReg (.arg c i)) s = .next { s with hostGot := .word ((s.chan c).arg.get i) }) ∧
    (∀ c, hostStep (.readReg (.cmd c)) s = .next { s with hostGot := .word (s.chan c).cmd }) ∧
    (∀ c, hostStep (.readReg (.busy c)) s =
      .next { s with hostGot := .word (if (s.chan c).busy then 1#32 else 0#32) }) ∧
    hostStep (.readReg .issueStatus) s = .next { s with hostGot := .word s.issueStatus } ∧
    (∀ a n, a + n ≤ s.cfg.hostMemSize → ∃ bs : List Byte,
      hostStep (.readMem a n) s = .next { s with hostGot := .bytes bs } ∧ bs.length = n ∧
        ∀ k, k < n → bs[k]? = some (s.byteAt .hostMem (a + k))) ∧
    (∀ a bs, a + bs.length ≤ s.cfg.hostMemSize → ∃ t : State,
      hostStep (.writeMem a bs) s = .next t ∧ t = { s with hostMem := t.hostMem } ∧
        ∀ x, t.byteAt .hostMem x =
          if a ≤ x ∧ x < a + bs.length then bs.getD (x - a) 0#8 else s.byteAt .hostMem x)

/-- R14 to R20, R408, R540, R760, R830, R850, R1001: a step of the machine is the step of the agent whose move comes
next, followed by the latch rule. Of a busy channel it is one step of the command that its word decodes to; an idle
channel and `MODEM_TX` have none. `script`, `pick` and `draws` are the model's own fields that carry the choice of the
interleaving: an empty script leaves the move to a free value, and a move without a step stands still (log 7). A channel
that holds no command of its own stops (R19, log 13), and a configuration that R8 forbids is refused (log 14). -/
def Obligations.StepRunsDecodedCommand : Prop :=
  ∀ s : State,
    (s.cfg.wf = false → step s = .refused .badConfig) ∧
    (s.script = [] → step s = step { s with script := [Config.freeMove s.draws], draws := s.draws + 1 }) ∧
    ∀ rest : List Move, s.cfg.wf = true →
      let u : State := { s with script := rest }
      (∀ a, s.script = .host a :: rest → step s = onNext State.latch (hostStep a u)) ∧
      (∀ c p, s.script = .channel c p :: rest →
        ((s.chan c).busy = false → step s = .next { u with pick := p }.latch) ∧
        ((s.chan c).busy = true →
          (∀ i, decode (s.chan c).cmd = .ok i → i.channel = c →
            step s = onNext State.latch (exec i { u with pick := p })) ∧
          ((∀ i, decode (s.chan c).cmd = .ok i → i.channel ≠ c) → step s = .fault .strayLabel))) ∧
      (∀ p, s.script = .worker p :: rest → step s = .next (workerStep { u with pick := p }).latch) ∧
      (∀ e, s.script = .dmac e :: rest → step s = .next (dmacStep e u).latch) ∧
      (∀ len f, s.script = .modemRx len f :: rest → step s = .next (modemRxStep len f u).latch) ∧
      (s.script = .modemTx :: rest → step s = .next u.latch) ∧
      (s.script = .clock :: rest → step s = .next { u with timeMs := s.timeMs + 1 }.latch) ∧
      (s.script = .reset :: rest → step s = .next u.resetEvent.latch)

/-- R13, R16, R850: an agent has an enabled step when some move of it is one; a move that is no enabled step changes
nothing (log 7: it stands still, and `pick` is the model's own); and the enabled step of the RX core appends its entry at
the tail of `RXQ` and does nothing else. -/
def Obligations.DisabledAgentsStandStill : Prop :=
  (∀ (a : Agent) (s : State), s.agentEnabled a = true ↔ ∃ m : Move, m.agent = some a ∧ s.takes m = true) ∧
  (∀ (m : Move) (s t : State), s.takes m = false → act m s = .next t → t = { s.latch with pick := t.pick }) ∧
  ∀ (s : State) (len : U32) (f : List Byte),
    (s.takes (.modemRx len f) = true ↔
      s.mrx.rxEnable.getLsbD 0 = true ∧ s.mrx.reset.getLsbD 0 = false ∧ s.mrx.rxq.length < s.cfg.rxqDepth) ∧
    (s.takes (.modemRx len f) = true →
      act (.modemRx len f) s = .next { s with mrx := { s.mrx with rxq := s.mrx.rxq ++ [(len, f)] } }.latch)

/-- R19, R101: a channel is idle, or busy at a label of its own command, and no step breaks that. -/
def Obligations.LabelsStayLegal : Prop :=
  ∀ s t : State, s.Labelled → step s = .next t → t.Labelled

/-- R922: under a legal configuration no step is refused, and the only stop is a host access past `HOSTMEM`. -/
def Obligations.NoCommandIsRefused : Prop :=
  ∀ s : State, s.cfg.wf = true → s.Labelled →
    (∀ x, step s ≠ .refused x) ∧
    ∀ f, step s = .fault f → f = .hostMemRange ∧
      ((∃ a n, s.nextMove.1 = .host (.readMem a n) ∧ s.cfg.hostMemSize < a + n) ∨
        ∃ a bs, s.nextMove.1 = .host (.writeMem a bs) ∧ s.cfg.hostMemSize < a + bs.length)

/-- R13, R18, R102, R902: what completing a command changes, and that raising an error leaves the results alone; and
R901: the number of each status. -/
def Obligations.FinishSetsNamedResults : Prop :=
  (∀ st : Status, st.code.toInt =
    match st with
    | .ok => 0
    | .eSize => -1
    | .eResource => -2
    | .eMap => -3
    | .eTimeout => -4
    | .eBus => -5
    | .eNotOpen => -6
    | .eBusy => -7
    | .eIllegal => -8
    | .ePacketTooLarge => -9
    | .rxTimeout => -16
    | .rxInvalidGuid => -17
    | .rxPackSzZero => -18
    | .rxNumFramesZero => -19
    | .rxFrameSzZero => -20
    | .rxFrameSzTooLarge => -21
    | .rxMtuZero => -22
    | .rxFrameInvalid => -23
    | .rxOverflow => -24
    | .rxIrqError => -25
    | .rxNotConfigured => -26) ∧
  ∀ (s : State) (c : Channel) (st : Status) (vs : List U32),
    ((s.finish c st vs).chan c).busy = false ∧ ((s.finish c st vs).chan c).status = st.code ∧
    ((s.finish c st vs).chan c).pc = .idle ∧ ((s.finish c st vs).chan c).cmd = (s.chan c).cmd ∧
    ((s.finish c st vs).chan c).arg = (s.chan c).arg ∧
    (∀ i : Fin 10, ((s.finish c st vs).chan c).res.get i = vs.getD i.val ((s.chan c).res.get i)) ∧
    s.finish c st vs = s.setChan c ((s.finish c st vs).chan c) ∧
    ((s.raise c st).chan c).status = st.code ∧ ((s.raise c st).chan c).res = (s.chan c).res

/-- R511: no DMA procedure returns `E_TIMEOUT`, and no channel or worker ever shows it. -/
def Obligations.TimeoutStatusNeverProduced : Prop :=
  (∀ e l d s st v t, dmaStep e l d s = .ret st v t → st ≠ .eTimeout) ∧
    ∀ s t : State, s.NeverTimeout → step s = .next t → t.NeverTimeout

/-! ## Register bus and interrupt lines -/

/-- R131, R140, R141, R402, R410: which registers exist in a space and at which offsets, those of the default maps among
them; a read of a mapped register returns its value, of an unmapped offset the bus error, and changes nothing else; and
what each register reads as. -/
def Obligations.RegReadCompletes : Prop :=
  (∀ (c : Config) (sp : Space) (off : U32) (r : Reg),
    (off, r) ∈ regTable c sp ↔ r.space = sp ∧ hasReg c r ∧ offsetOf c r = off) ∧
  (∀ c : Config, c.dmacMap = {} → c.modemTxMap = {} → c.modemRxMap = {} →
    (∀ e : Engine, [DReg.irqMask, .irqPending, .control, .transferId, .transferSubmit, .flags, .destAddress, .srcAddress,
        .xLength, .yLength, .destStride, .srcStride, .transferDone].map (fun r => offsetOf c (.dmac e r)) =
      [0x080#32, 0x084#32, 0x400#32, 0x404#32, 0x408#32, 0x40C#32, 0x410#32, 0x414#32, 0x418#32, 0x41C#32, 0x420#32,
        0x424#32, 0x428#32]) ∧
    [TReg.reset, .txSrcSel].map (fun r => offsetOf c (.mtx r)) = [0x00#32, 0x04#32] ∧
    [RReg.reset, .rxEnable, .loopBw, .eqGain, .bypassCoding, .bypassEq, .detThresh, .payloadLen, .frCoef 0, .frCoef 1,
        .frCoef 2, .frCoef 3].map (fun r => offsetOf c (.mrx r)) =
      [0x00#32, 0x04#32, 0x08#32, 0x0C#32, 0x10#32, 0x14#32, 0x18#32, 0x1C#32, 0x20#32, 0x24#32, 0x28#32, 0x2C#32]) ∧
  (∀ (s : State) (sp : Space), s.cfg.wf = true → s.chBus.pc = .regRead →
    (∀ r, (s.chBus.opd.a0, r) ∈ regTable s.cfg sp →
      exec (.regRead sp) s = .next (s.finish .bus .ok [s.regRead r])) ∧
    (s.chBus.opd.a0.toNat % 4 ≠ 0 ∨ (∀ p ∈ regTable s.cfg sp, p.1 ≠ s.chBus.opd.a0) →
      exec (.regRead sp) s = .next (s.raise .bus .eBus))) ∧
  ∀ (s : State) (e : Engine),
    s.regRead (.dmac e .irqMask) = (s.dmac e).irqMask ∧ s.regRead (.dmac e .irqPending) = (s.dmac e).irqPending ∧
    s.regRead (.dmac e .control) = (s.dmac e).control ∧ s.regRead (.dmac e .transferId) = (s.dmac e).transferId ∧
    s.regRead (.dmac e .transferSubmit) = 0#32 ∧ s.regRead (.dmac e .flags) = (s.dmac e).flags ∧
    s.regRead (.dmac e .destAddress) = (s.dmac e).destAddress ∧
    s.regRead (.dmac e .srcAddress) = (s.dmac e).srcAddress ∧ s.regRead (.dmac e .xLength) = (s.dmac e).xLength ∧
    s.regRead (.dmac e .yLength) = (s.dmac e).yLength ∧ s.regRead (.dmac e .destStride) = (s.dmac e).destStride ∧
    s.regRead (.dmac e .srcStride) = (s.dmac e).srcStride ∧
    s.regRead (.dmac e .transferDone) = (s.dmac e).transferDone ∧ s.regRead (.mtx .reset) = s.mtx.reset ∧
    s.regRead (.mtx .txSrcSel) = s.mtx.txSrcSel ∧ s.regRead (.mrx .reset) = s.mrx.reset ∧
    s.regRead (.mrx .rxEnable) = s.mrx.rxEnable ∧ s.regRead (.mrx .loopBw) = s.mrx.loopBw ∧
    s.regRead (.mrx .eqGain) = s.mrx.eqGain ∧ s.regRead (.mrx .bypassCoding) = s.mrx.bypassCoding ∧
    s.regRead (.mrx .bypassEq) = s.mrx.bypassEq ∧ s.regRead (.mrx .detThresh) = s.mrx.detThresh ∧
    s.regRead (.mrx (.frCoef 0)) = s.mrx.frCoef0 ∧ s.regRead (.mrx (.frCoef 1)) = s.mrx.frCoef1 ∧
    s.regRead (.mrx (.frCoef 2)) = s.mrx.frCoef2 ∧ s.regRead (.mrx (.frCoef 3)) = s.mrx.frCoef3 ∧
    (s.mrx.rxq = [] → s.regRead (.mrx .payloadLen) = 0#32) ∧
    ∀ len f q, s.mrx.rxq = (len, f) :: q → s.regRead (.mrx .payloadLen) = len

/-- R411, R404. -/
def Obligations.RegWriteCompletes : Prop :=
  ∀ (s : State) (sp : Space), s.cfg.wf = true → s.chBus.pc = .regWrite →
    (∀ r, (s.chBus.opd.a0, r) ∈ regTable s.cfg sp →
      exec (.regWrite sp) s = .next ((s.regWrite r s.chBus.opd.a1).finish .bus .ok [0#32])) ∧
    (s.chBus.opd.a0.toNat % 4 ≠ 0 ∨ (∀ p ∈ regTable s.cfg sp, p.1 ≠ s.chBus.opd.a0) →
      exec (.regWrite sp) s = .next (s.raise .bus .eBus))

/-- R403: what a register write leaves in every register, its side effects on the two kinds of queue, and the latch rule
after it. A submit is stated in `SubmitAppendsAndDisableAborts`. -/
def Obligations.RegWriteEffects : Prop :=
  ∀ (s : State) (r : Reg) (v : U32),
    (∀ l, (s.regWrite r v).line l = (s.line l).latch ((s.regWrite r v).level l)) ∧
    (s.regWrite r v = { s with dtx := (s.regWrite r v).dtx, drx := (s.regWrite r v).drx, mtx := (s.regWrite r v).mtx,
                               mrx := (s.regWrite r v).mrx, lines := (s.regWrite r v).lines }) ∧
    ((∀ e, r ≠ .dmac e .transferSubmit) → ∀ r', (r = .mrx .reset → r' ≠ .mrx .payloadLen) →
      (s.regWrite r v).regRead r' = if r' = r then writtenValue r (s.regRead r) v else s.regRead r') ∧
    ((∀ e, r ≠ .dmac e .transferSubmit) → ∀ e, ((s.regWrite r v).dmac e).queue =
      if r = .dmac e .control ∧ v.getLsbD 0 = false then [] else (s.dmac e).queue) ∧
    ((s.regWrite r v).mrx.rxq = if r = .mrx .reset ∧ v.getLsbD 0 = true then [] else s.mrx.rxq) ∧
    (∀ e, r = .dmac e .transferSubmit → v.getLsbD 0 = false → (s.regWrite r v).dmac e = s.dmac e)

/-- R541, R545: a submit appends one record, or does nothing; clearing `ENABLE` empties the queue. -/
def Obligations.SubmitAppendsAndDisableAborts : Prop :=
  ∀ (s : State) (e : Engine) (v : U32),
    (∀ r, s.regWrite (.dmac e r) v =
      { s.setDmac e ((s.regWrite (.dmac e r) v).dmac e) with lines := (s.regWrite (.dmac e r) v).lines }) ∧
    (v.getLsbD 0 = true →
      ((s.dmac e).control.getLsbD 0 = false ∨ (s.dmac e).queue.length = s.cfg.numTransferIds →
        (s.regWrite (.dmac e .transferSubmit) v).dmac e = s.dmac e) ∧
      ((s.dmac e).control.getLsbD 0 = true → (s.dmac e).queue.length ≠ s.cfg.numTransferIds → ∃ r : DmaRec,
        (s.regWrite (.dmac e .transferSubmit) v).dmac e =
          { s.dmac e with
            queue := (s.dmac e).queue ++ [r]
            transferDone := (s.dmac e).transferDone &&& ~~~(1#32 <<< (s.dmac e).transferId.toNat)
            transferId := u32 (((s.dmac e).transferId.toNat + 1) % s.cfg.numTransferIds) } ∧
        r.id = (s.dmac e).transferId ∧ r.cyclic = (s.dmac e).flags.getLsbD 0 ∧ r.started = false ∧
        r.rows = (s.dmac e).yLength.toNat + 1 ∧ r.rowLen = (s.dmac e).xLength.toNat + 1 ∧
        r.len = ((s.dmac e).yLength.toNat + 1) * ((s.dmac e).xLength.toNat + 1) ∧
        r.addr = (match e with | .tx => (s.dmac e).srcAddress.toNat | .rx => (s.dmac e).destAddress.toNat) ∧
        r.stride = (match e with | .tx => (s.dmac e).srcStride.toNat | .rx => (s.dmac e).destStride.toNat))) ∧
    (v.getLsbD 0 = false →
      (s.regWrite (.dmac e .control) v).dmac e = { s.dmac e with control := v &&& 0x3#32, queue := [] })

/-- R405, R406, R407, R412, R413, R414: masking and unmasking a line, the ways `IRQ.WAIT` completes, and that it waits
otherwise. The pick is the choice of the move; the wait began at `t0` (log 5). -/
def Obligations.IrqCommandsComplete : Prop :=
  ∀ (s : State) (sp : Space),
    (s.chBus.pc = .irqMask →
      exec (.irqMask sp) s = .next ((s.setLine sp { masked := true, latched := false }).finish .bus .ok [0#32])) ∧
    (s.chBus.pc = .irqUnmask → ∃ ls : Lines,
      exec (.irqUnmask sp) s = .next ({ s with lines := ls }.finish .bus .ok [0#32]) ∧
        (∀ l, ls.get l = (if l = sp then { s.line l with masked := false } else s.line l).latch (s.level l)) ∧
        (ls.get .mtx).latched = (s.line .mtx).latched) ∧
    (s.chBus.pc = .irqWait →
      (s.pick = .wake → (s.line sp).latched = true →
        exec (.irqWait sp) s =
          .next ((s.setLine sp { masked := (s.line sp).masked, latched := false }).finish .bus .ok [1#32])) ∧
      (s.pick = .expire → (s.line sp).latched = false →
        s.chBus.loc.t0 + s.chBus.opd.a0.toNat ≤ s.timeMs ∨ s.cfg.timeAbstract = true →
        exec (.irqWait sp) s = .next (s.finish .bus .ok [0#32])) ∧
      (s.pick = .fail → s.cfg.busMayFail = true → exec (.irqWait sp) s = .next (s.raise .bus .eBus)) ∧
      ((s.line sp).latched = false → s.timeMs < s.chBus.loc.t0 + s.chBus.opd.a0.toNat → s.cfg.timeAbstract = false →
        s.cfg.busMayFail = false → exec (.irqWait sp) s = .next s))

/-- R150, R408: the level of each line; the latch rule ends every step of every agent, so no unmasked line stays high, and
the `MTX` line never latches. -/
def Obligations.LatchRuleEndsEveryStep : Prop :=
  (∀ s : State, s.level .mtx = false ∧ (s.level .dtx = true ↔ s.dtx.irqPending ≠ 0#32) ∧
    (s.level .drx = true ↔ s.drx.irqPending ≠ 0#32) ∧
    (s.level .mrx = true ↔
      s.mrx.rxEnable.getLsbD 0 = true ∧ s.mrx.reset.getLsbD 0 = false ∧ s.mrx.rxq ≠ [])) ∧
  (∀ (m : Move) (s t : State), act m s = .next t →
    ∃ u, moveBody m s = .next u ∧ t = { u with lines := t.lines } ∧
      ∀ l, t.level l = u.level l ∧
        t.line l =
          if u.level l = true ∧ (u.line l).masked = false then { masked := true, latched := true } else u.line l) ∧
    ∀ s t : State, s.LinesSettled → step s = .next t → t.LinesSettled

/-! ## DMA -/

/-- R502. -/
def Obligations.DmaOpenCompletes : Prop :=
  ∀ (s : State) (e : Engine), (s.chan e.channel).pc = .dmaOpen →
    (s.isOpen e = true →
      exec (.dmaOpen e) s = .next (s.finish e.channel .ok [u32 (s.cfg.bufSize e), u32 (s.cfg.bufPhys e)])) ∧
    (s.isOpen e = false → s.cfg.platformOk e = false →
      exec (.dmaOpen e) s = .next (s.raise e.channel .eResource)) ∧
    (s.isOpen e = false → s.cfg.platformOk e = true → s.cfg.mapOk e = false →
      exec (.dmaOpen e) s = .next (s.raise e.channel .eMap)) ∧
    (s.isOpen e = false → s.cfg.platformOk e = true → s.cfg.mapOk e = true →
      exec (.dmaOpen e) s =
        .next ((s.setOpen e true).finish e.channel .ok [u32 (s.cfg.bufSize e), u32 (s.cfg.bufPhys e)]))

/-- R503, R513. The open engine is closed in two steps (log 5). -/
def Obligations.DmaCloseCompletes : Prop :=
  ∀ (s : State) (e : Engine), (s.chan e.channel).pc = .dcl1 →
    (e = .rx → s.worker.pc ≠ .dead → exec (.dmaClose e) s = .next (s.raise e.channel .eBusy)) ∧
    ((e = .rx → s.worker.pc = .dead) → s.isOpen e = false →
      exec (.dmaClose e) s = .next (s.finish e.channel .ok [0#32])) ∧
    ((e = .rx → s.worker.pc = .dead) → s.isOpen e = true →
      execTimes (.dmaClose e) 2 s =
        .next ((((s.regWrite (.dmac e .control) 0#32).setLine e.space { masked := true, latched := false }).setOpen e
          false).finish e.channel .ok [0#32]))

/-- R505, R506, R512: a cyclic write programs the controller, submits one cyclic transfer and returns without waiting:
thirteen steps of the command alone. -/
def Obligations.DmaWriteCyclicReturnsAtOnce : Prop :=
  ∀ (s : State) (cnf : Bool), s.cfg.wf = true → s.chTx.pc = .dma .d1 → s.openTx = true →
    0 < s32 s.chTx.opd.a1 → (s.chTx.opd.a0.toNat : Int) + s32 s.chTx.opd.a1 ≤ (s.cfg.bufSizeTx : Int) →
    ∃ (t : State) (r : DmaRec), execTimes (.dmaWrite .tx true cnf) 13 s = .next t ∧
      t = { s with chTx := t.chTx, dtx := t.dtx, lines := t.lines } ∧
      t.chTx.busy = false ∧ t.chTx.status = 0#32 ∧ t.chTx.res.get 0 = s.chTx.opd.a1 ∧ t.chTx.pc = .idle ∧
      t.dtx =
        { s.dtx with
          irqMask := 0#32, irqPending := s.dtx.irqPending &&& ~~~0x3#32, control := 1#32, flags := 1#32
          srcAddress := u32 (s.cfg.bufPhysTx + s.chTx.opd.a0.toNat), srcStride := s.chTx.opd.a1
          xLength := s.chTx.opd.a1 - 1#32, yLength := 0#32
          transferId := u32 ((s.dtx.transferId.toNat + 1) % s.cfg.numTransferIds)
          transferDone := s.dtx.transferDone &&& ~~~(1#32 <<< s.dtx.transferId.toNat), queue := [r] } ∧
      r.id = s.dtx.transferId ∧ r.addr = s.cfg.bufPhysTx + s.chTx.opd.a0.toNat ∧ r.rows = 1 ∧
      r.rowLen = s.chTx.opd.a1.toNat ∧ r.cyclic = true ∧ r.started = false

/-- R505, R506, R509, R510, R542, R543: `DMA.WRITE TX cnf` delivers exactly the bytes of its range, once, as one
`TxStream` event, and finishes with the size, whether its waits see their phases or time out; without `cnf` it finishes
with the size after its wait for SOT, seen or timed out, with the transfer still queued. Each along one schedule. -/
def Obligations.DmaWriteConfirmedDelivers : Prop :=
  ∀ (s : State) (cnf : Bool), s.cfg.wf = true → s.dtx.Legal s.cfg → s.chTx.busy = true →
    decode s.chTx.cmd = .ok (.dmaWrite .tx false cnf) → s.chTx.pc = .dma .d1 → s.openTx = true →
    s.mtx.reset.getLsbD 0 = false → 0 < s32 s.chTx.opd.a1 →
    (s.chTx.opd.a0.toNat : Int) + s32 s.chTx.opd.a1 ≤ (s.cfg.bufSizeTx : Int) →
    let T := s.cfg.dmaIrqTimeoutMs
    let finished (t : State) : Prop :=
      t.chTx.busy = false ∧ t.chTx.status = 0#32 ∧ t.chTx.res.get 0 = s.chTx.opd.a1 ∧ t.chTx.pc = .idle
    let delivered (t : State) : Prop :=
      t.log = s.log ++ [.txStream (s.readMem (.buf .tx) s.chTx.opd.a0.toNat s.chTx.opd.a1.toNat) false] ∧
        t.dtx.queue = [] ∧ t.dtx.transferDone.getLsbD s.dtx.transferId.toNat = true
    let queued (started : Bool) (t : State) : Prop :=
      t.dtx.transferDone.getLsbD s.dtx.transferId.toNat = false ∧
        t.dtx.queue = [{ id := s.dtx.transferId, addr := s.cfg.bufPhysTx + s.chTx.opd.a0.toNat, rows := 1
                         rowLen := s.chTx.opd.a1.toNat, stride := s.chTx.opd.a1.toNat, cyclic := false
                         started := started }]
    (cnf = true →
      (∃ t : State, actAll dmaWriteSchedule s = .next t ∧
        t = { s with chTx := t.chTx, dtx := t.dtx, lines := t.lines, log := t.log, pick := t.pick } ∧
        finished t ∧ delivered t ∧ t.dtx.irqPending = 0#32) ∧
      ∃ t : State, actAll (dmaWriteTimeoutSchedule T) s = .next t ∧
        t = { s with chTx := t.chTx, dtx := t.dtx, lines := t.lines, log := t.log, pick := t.pick
                     timeMs := s.timeMs + T + T } ∧
        finished t ∧ delivered t ∧ t.dtx.irqPending = 3#32) ∧
    (cnf = false →
      (∃ t : State, actAll dmaWriteUnconfirmedSchedule s = .next t ∧
        t = { s with chTx := t.chTx, dtx := t.dtx, lines := t.lines, pick := t.pick } ∧
        finished t ∧ queued true t ∧ t.dtx.irqPending = 0#32) ∧
      ∃ t : State, actAll (dmaWriteUnconfirmedTimeoutSchedule T) s = .next t ∧
        t = { s with chTx := t.chTx, dtx := t.dtx, lines := t.lines, pick := t.pick, timeMs := s.timeMs + T } ∧
        finished t ∧ queued false t ∧ t.dtx.irqPending = 0#32)

/-- R507, R508, R509, R510, R542, R543: `DMA.READ RX` moves the head frame of `RXQ` into its range, cut to the size, whether
its waits see their phases or time out; every other byte keeps its value. Each along one schedule. -/
def Obligations.DmaReadConfirmedDelivers : Prop :=
  ∀ (s : State) (len : U32) (f : List Byte) (q : List (U32 × List Byte)), s.cfg.wf = true → s.drx.Legal s.cfg →
    s.chRx.busy = true → decode s.chRx.cmd = .ok (.dmaRead .rx) → s.chRx.pc = .dma .d1 → s.openRx = true →
    s.worker.pc = .dead → s.mrx.rxq = (len, f) :: q → 0 < s32 s.chRx.opd.a1 →
    (s.chRx.opd.a0.toNat : Int) + s32 s.chRx.opd.a1 ≤ (s.cfg.bufSizeRx : Int) →
    ∀ (ms : List Move) (time : Nat),
      (ms = dmaReadSchedule ∧ time = s.timeMs) ∨
        (ms = dmaReadTimeoutSchedule s.cfg.dmaIrqTimeoutMs ∧
          time = s.timeMs + s.cfg.dmaIrqTimeoutMs + s.cfg.dmaIrqTimeoutMs) →
      ∃ t : State, actAll ms s = .next t ∧
        t = { s with chRx := t.chRx, drx := t.drx, mrx := { s.mrx with rxq := q }, bufRx := t.bufRx, lines := t.lines,
                     pick := t.pick, draws := t.draws, timeMs := time } ∧
        t.chRx.busy = false ∧ t.chRx.status = 0#32 ∧ t.chRx.res.get 0 = s.chRx.opd.a1 ∧ t.chRx.pc = .idle ∧
        t.drx.queue = [] ∧ t.drx.transferDone.getLsbD s.drx.transferId.toNat = true ∧
        (∀ k, k < s.chRx.opd.a1.toNat → k < f.length →
          t.byteAt (.buf .rx) (s.chRx.opd.a0.toNat + k) = f.getD k 0#8) ∧
        ∀ a, a < s.chRx.opd.a0.toNat ∨ s.chRx.opd.a0.toNat + s.chRx.opd.a1.toNat ≤ a →
          t.byteAt (.buf .rx) a = s.byteAt (.buf .rx) a

/-- R504 to R510, R513, R903: the order of the checks of the two DMA transfer commands at their first step; every later
step of the two DMA procedures, whoever runs them; and how the two commands run them. Which lines are steps is log 17. -/
def Obligations.DmaChecksInOrder : Prop :=
  (∀ (s : State) (cyc cnf : Bool), s.chRx.pc = .dma .d1 →
    exec (.dmaWrite .rx cyc cnf) s = .next (s.raise .rx .eIllegal)) ∧
  (∀ s : State, s.chTx.pc = .dma .d1 → exec (.dmaRead .tx) s = .next (s.raise .tx .eIllegal)) ∧
  (∀ s : State, s.chRx.pc = .dma .d1 → s.worker.pc ≠ .dead → exec (.dmaRead .rx) s = .next (s.raise .rx .eBusy)) ∧
  (∀ (s : State) (cyc cnf : Bool), s.chTx.pc = .dma .d1 →
    (s.openTx = false → exec (.dmaWrite .tx cyc cnf) s = .next (s.raise .tx .eNotOpen)) ∧
    (s.openTx = true →
      s32 s.chTx.opd.a1 < 0 ∨ (s.cfg.bufSizeTx : Int) < (s.chTx.opd.a0.toNat : Int) + s32 s.chTx.opd.a1 →
      exec (.dmaWrite .tx cyc cnf) s = .next (s.raise .tx .eSize)) ∧
    (s.openTx = true → s.chTx.opd.a1 = 0#32 → s.chTx.opd.a0.toNat ≤ s.cfg.bufSizeTx →
      exec (.dmaWrite .tx cyc cnf) s = .next (s.finish .tx .ok [0#32]))) ∧
  (∀ s : State, s.chRx.pc = .dma .d1 → s.worker.pc = .dead →
    (s.openRx = false → exec (.dmaRead .rx) s = .next (s.raise .rx .eNotOpen)) ∧
    (s.openRx = true →
      s32 s.chRx.opd.a1 < 0 ∨ (s.cfg.bufSizeRx : Int) < (s.chRx.opd.a0.toNat : Int) + s32 s.chRx.opd.a1 →
      exec (.dmaRead .rx) s = .next (s.raise .rx .eSize)) ∧
    (s.openRx = true → s.chRx.opd.a1 = 0#32 → s.chRx.opd.a0.toNat ≤ s.cfg.bufSizeRx →
      exec (.dmaRead .rx) s = .next (s.finish .rx .ok [0#32]))) ∧
  (∀ (s : State) (e : Engine) (d : DmaLocals),
    let seen (d' : DmaLocals) (t : State) : DmaNext :=
      match d'.phase with
      | .eot => .go .pd1 d' t
      | .sot =>
        if e = .tx ∧ d'.cnf = false then .go .back d' t
        else if d'.eotSeen = true then .go .pd1 d' t
        else .go (if e = .rx then .wp1 else .wp2) { d' with phase := .eot } t
    let bit : Nat := match d.phase with | .sot => 0 | .eot => 1
    let doneBit : Bool := (s.dmac e).transferDone.getLsbD d.id.toNat
    (s.isOpen e = true → 0 < s32 d.size → (d.off : Int) + s32 d.size ≤ (s.cfg.bufSize e : Int) →
      dmaStep e .d1 d s = .go .d2 d s) ∧
    dmaStep e .d2 d s = .go .d3 d (s.regWrite (.dmac e .control) 0#32) ∧
    dmaStep e .d3 d s = .go .d4 d (s.regWrite (.dmac e .control) 1#32) ∧
    dmaStep e .d4 d s = .go .d5 d (s.regWrite (.dmac e .irqPending) 3#32) ∧
    dmaStep e .d5 d s = .go .d6 d (s.regWrite (.dmac e .irqMask) 0#32) ∧
    dmaStep e .d6 d s = .go .d7 d (s.regWrite (.dmac e .flags) (if d.cyc = true ∧ e = .tx then 1#32 else 0#32)) ∧
    dmaStep e .d7 d s = .go .d8 d (s.regWrite (.dmac e (match e with | .tx => .srcAddress | .rx => .destAddress))
      (u32 (s.cfg.bufPhys e + d.off))) ∧
    dmaStep e .d8 d s =
      .go .d9 d (s.regWrite (.dmac e (match e with | .tx => .srcStride | .rx => .destStride)) d.size) ∧
    dmaStep e .d9 d s = .go .d10 d (s.regWrite (.dmac e .xLength) (d.size - 1#32)) ∧
    dmaStep e .d10 d s = .go .d11 d (s.regWrite (.dmac e .yLength) 0#32) ∧
    dmaStep e .d11 d s = .go .d12 { d with id := (s.dmac e).transferId } s ∧
    dmaStep e .d12 d s =
      (if e = .tx ∧ d.cyc = true then .go .back d (s.regWrite (.dmac e .transferSubmit) 1#32)
      else .go .wp2 { d with phase := .sot, eotSeen := false } (s.regWrite (.dmac e .transferSubmit) 1#32)) ∧
    dmaStep e .wp1 d s = (if doneBit = true then seen d s else .go .wp2 d s) ∧
    (∃ ls : Lines, dmaStep e .wp2 d s = .go .wp3 { d with t0 := s.timeMs } { s with lines := ls } ∧
      ∀ l, ls.get l = (if l = e.space then { s.line l with masked := false } else s.line l).latch (s.level l)) ∧
    (s.pick = .wake → (s.line e.space).latched = true → dmaStep e .wp3 d s =
      .go .wp4 d (s.setLine e.space { masked := (s.line e.space).masked, latched := false })) ∧
    (s.pick = .expire → (s.line e.space).latched = false →
      d.t0 + s.cfg.dmaIrqTimeoutMs ≤ s.timeMs ∨ s.cfg.timeAbstract = true → dmaStep e .wp3 d s = seen d s) ∧
    (s.pick = .fail → s.cfg.busMayFail = true → dmaStep e .wp3 d s = .ret .eBus 0#32 s) ∧
    ((s.line e.space).latched = false → s.timeMs < d.t0 + s.cfg.dmaIrqTimeoutMs → s.cfg.timeAbstract = false →
      s.cfg.busMayFail = false → dmaStep e .wp3 d s = .blocked) ∧
    dmaStep e .wp4 d s = .go .wp5 { d with pend := (s.dmac e).irqPending } s ∧
    (let d' : DmaLocals := { d with eotSeen := d.eotSeen || d.pend.getLsbD 1 }
     let t := s.regWrite (.dmac e .irqPending) d.pend
     dmaStep e .wp5 d s =
      (if d.pend.getLsbD bit = true then seen d' t else .go (if e = .rx ∧ d.phase = .eot then .wp1 else .wp2) d' t)) ∧
    dmaStep e .pd1 d s = (if doneBit = true then .go .back d s else .go .pd1 d s) ∧
    dmaStep e .back d s = .ret .ok d.size s) ∧
  ∀ (s : State) (l : DmaLabel),
    let ran (c : Channel) (x : DmaNext) : Result := .next (x.runAs c .dma (fun v t => t.finish c .ok [v]) s)
    (∀ cyc cnf, s.chTx.pc = .dma l → exec (.dmaWrite .tx cyc cnf) s = ran .tx (dmaStep .tx l
      { s.chTx.loc.dma with off := s.chTx.opd.a0.toNat, size := s.chTx.opd.a1, cyc := cyc, cnf := cnf } s)) ∧
    (s.chRx.pc = .dma l → l ≠ .d1 ∨ s.worker.pc = .dead → exec (.dmaRead .rx) s = ran .rx (dmaStep .rx l
      { s.chRx.loc.dma with off := s.chRx.opd.a0.toNat, size := s.chRx.opd.a1, cyc := false, cnf := true } s))

/-- R540, R542, R543, R544: what one step of an enabled DMA controller does to its head record, also where the engine is
closed (log 23). -/
def Obligations.TransferStartsThenCompletes : Prop :=
  ∀ (s : State) (e : Engine) (r : DmaRec) (rest : List DmaRec),
    (s.dmac e).queue = r :: rest → (s.dmac e).control.getLsbD 0 = true →
    (r.started = false →
      dmacStep e s = s.setDmac e
        { s.dmac e with
          queue := { r with started := true } :: rest
          irqPending := if (s.dmac e).irqMask.getLsbD 0 then (s.dmac e).irqPending else (s.dmac e).irqPending ||| 1#32 }) ∧
    (r.started = true → (e = .tx → s.mtx.reset.getLsbD 0 = false) → (e = .rx → s.mrx.rxq ≠ []) →
      (∃ k, k < r.rows ∧ ¬ (s.cfg.bufPhys e ≤ r.addr + k * r.stride ∧
        r.addr + k * r.stride + r.rowLen ≤ s.cfg.bufPhys e + s.cfg.bufSize e)) →
      dmacStep e s = { s.setDmac e { s.dmac e with queue := rest } with faultDmaWild := true }) ∧
    (r.started = true → (∀ k, k < r.rows → s.cfg.bufPhys e ≤ r.addr + k * r.stride ∧
        r.addr + k * r.stride + r.rowLen ≤ s.cfg.bufPhys e + s.cfg.bufSize e) →
      (e = .tx → s.mtx.reset.getLsbD 0 = false →
        dmacStep e s =
          { s with
            log := s.log ++ [.txStream ((List.range r.rows).flatMap fun k =>
              s.readMem (.buf .tx) (r.addr + k * r.stride - s.cfg.bufPhysTx) r.rowLen) r.cyclic]
            dtx := { s.dtx with
              irqPending := if s.dtx.irqMask.getLsbD 1 then s.dtx.irqPending else s.dtx.irqPending ||| 2#32
              transferDone := s.dtx.transferDone ||| (1#32 <<< r.id.toNat)
              queue := if r.cyclic then r :: rest else rest } }) ∧
      (e = .rx → ∀ len f q, s.mrx.rxq = (len, f) :: q → ∃ t : State, dmacStep e s = t ∧
        t = { s with
          bufRx := t.bufRx, draws := t.draws, mrx := { s.mrx with rxq := q }
          drx := { s.drx with
            irqPending := if s.drx.irqMask.getLsbD 1 then s.drx.irqPending else s.drx.irqPending ||| 2#32
            transferDone := s.drx.transferDone ||| (1#32 <<< r.id.toNat)
            queue := if r.cyclic then r :: rest else rest } } ∧
        (r.rowLen ≤ r.stride ∨ r.rows ≤ 1 → ∀ i k, i < r.rows → k < r.rowLen → i * r.rowLen + k < f.length →
          t.byteAt (.buf .rx) (r.addr + i * r.stride - s.cfg.bufPhysRx + k) = f.getD (i * r.rowLen + k) 0#8) ∧
        ∀ a, (∀ i, i < r.rows → a < r.addr + i * r.stride - s.cfg.bufPhysRx ∨
            r.addr + i * r.stride - s.cfg.bufPhysRx + r.rowLen ≤ a) →
          t.byteAt (.buf .rx) a = s.byteAt (.buf .rx) a))

/-- R546: a pending bit is set only by its controller's own step, and only where the mask bit is 0; it is cleared only by
a write of 1 to it (the host's register write, or a step of a DMA procedure that discards or acknowledges), or by reset. -/
def Obligations.PendingBitsSetByControllerOnly : Prop :=
  ∀ (m : Move) (s t : State) (e : Engine) (i : Nat), act m s = .next t →
    ((t.dmac e).irqPending.getLsbD i = true → (s.dmac e).irqPending.getLsbD i = false →
      m = .dmac e ∧ i < 2 ∧ (s.dmac e).irqMask.getLsbD i = false) ∧
    ((t.dmac e).irqPending.getLsbD i = false → (s.dmac e).irqPending.getLsbD i = true →
      m = .reset ∨ ∃ v, s.pendingWrite m e = some v ∧ v.getLsbD i = true)

/-- R131, R132, R140, R141, R142, R540, R541, R545, R851: the register spaces keep their shape. -/
def Obligations.RegistersStayLegal : Prop :=
  ∀ s t : State, s.RegsLegal → step s = .next t → t.RegsLegal

/-- R202, R504: no move but a host register write to a controller can lead to a wild transfer; the engine procedures only
ever program ranges inside their buffer. -/
def Obligations.ProceduresNeverProgramWild : Prop :=
  ∀ (m : Move) (s t : State), s.cfg.wf = true → s.WorkerOwns → s.Tame →
    ¬ (s.hostWritesController ∧ ∃ p, m = .channel .bus p) → act m s = .next t → t.Tame

/-! ## Codec -/

/-- R601: the check value of the default CRC, the CRC of the empty string, and that changing any one byte, so any one bit,
of a byte string changes its CRC; and that changing any one bit changes the CRC under every choice of the parameter. -/
def Obligations.CrcDetectsOneByteChange : Prop :=
  crcCcitt [0x31#8, 0x32#8, 0x33#8, 0x34#8, 0x35#8, 0x36#8, 0x37#8, 0x38#8, 0x39#8] = 0x29B1#16 ∧
    crcCcitt [] = 0xFFFF#16 ∧
    (∀ (xs ys : List Byte) (b b' : Byte), b ≠ b' → crcCcitt (xs ++ b :: ys) ≠ crcCcitt (xs ++ b' :: ys)) ∧
    (∀ c : Config, c.crc16 = .ccittFalse → crc16 c = crcCcitt) ∧
    ∀ (c : Config) (xs ys : List Byte) (b : Byte) (i : Nat), i < 8 →
      crc16 c (xs ++ b :: ys) ≠ crc16 c (xs ++ (b ^^^ (1#8 <<< i)) :: ys)

/-- R203, R320, R321: each field of a header stands at its offset of R320's table, least significant byte first, and the
word at byte 28 holds the two CRC copies; header construction and extraction are inverse to each other, on 32 bytes. -/
def Obligations.HeaderBytesRoundTrip : Prop :=
  (∀ h : Hdr,
    let storedAt (o n v : Nat) : Prop := ∀ k, k < n → ((hdrBytes h).getD (o + k) 0#8).toNat = v / 256 ^ k % 256
    storedAt 0 4 h.ident.toNat ∧ storedAt 4 4 h.packId.toNat ∧ storedAt 8 4 h.packSz.toNat ∧
    storedAt 12 4 h.frameId.toNat ∧ storedAt 16 4 h.numFrames.toNat ∧ storedAt 20 4 h.mtu.toNat ∧
    storedAt 24 4 h.frameSz.toNat ∧ storedAt 28 2 h.crc.toNat ∧ storedAt 30 2 h.crc2.toNat ∧
    storedAt 28 4 (crcWord h).toNat ∧ (crcWord h).toNat = h.crc.toNat + 2 ^ 16 * h.crc2.toNat) ∧
  (∀ h : Hdr, (hdrBytes h).length = 32 ∧ hdrOf (hdrBytes h) = h) ∧
    ∀ b : List Byte, b.length = 32 → hdrBytes (hdrOf b) = b

/-- R212, R324, R602, R603: the bytes `Encode` leaves at each part of the frame, and nowhere else; and that the write sets
the race fault exactly where a queued transfer overlaps it, row by row (log 4, log 21). -/
def Obligations.EncodeWritesFrameLayout : Prop :=
  ∀ (s : State) (e : Engine) (o : Nat) (p : List Byte) (mtu packId frameId numFrames packSz : U32),
    let t := s.encode e o p mtu packId frameId numFrames packSz
    t.readMem (.buf e) o 32 = hdrBytes
      { ident := s.cfg.guid, packId := packId, packSz := packSz, frameId := frameId, numFrames := numFrames, mtu := mtu,
        frameSz := u32 p.length, crc := crc16 s.cfg p, crc2 := crc16 s.cfg p } ∧
    t.readMem (.buf e) (o + 32) p.length = p ∧
    t.readMem (.buf e) (o + 32 + p.length) (pad8 p.length - p.length) =
      List.replicate (pad8 p.length - p.length) 0#8 ∧
    t.readMem (.buf e) (o + 32 + pad8 p.length) s.cfg.resvPad = List.replicate s.cfg.resvPad 0#8 ∧
    (∀ a, a < o ∨ o + (32 + pad8 p.length + s.cfg.resvPad) ≤ a → t.byteAt (.buf e) a = s.byteAt (.buf e) a) ∧
    (∀ z a, z ≠ .buf e → t.byteAt z a = s.byteAt z a) ∧
    t.faultBufRace = (s.faultBufRace || s.raced e o (32 + pad8 p.length + s.cfg.resvPad)) ∧
    ∀ n, s.raced e o n = true ↔ ∃ r ∈ (s.dmac e).queue, ∃ k, k < r.rows ∧ 0 < n ∧ 0 < r.rowLen ∧
      r.addr + k * r.stride < s.cfg.bufPhys e + o + n ∧ s.cfg.bufPhys e + o < r.addr + k * r.stride + r.rowLen

/-- R606: the checks of CODEC.ENCODE in order, and its completion in two steps (log 5). -/
def Obligations.CodecEncodeCompletes : Prop :=
  ∀ (s : State) (e : Engine), (s.chan e.channel).pc = .enc1 →
    let c := e.channel
    let a := (s.chan c).opd
    (e = .rx → s.worker.pc ≠ .dead → exec (.codecEncode e) s = .next (s.raise c .eBusy)) ∧
    ((e = .rx → s.worker.pc = .dead) →
      (s.isOpen e = false → exec (.codecEncode e) s = .next (s.raise c .eNotOpen)) ∧
      (s.isOpen e = true → s.cfg.hostMemSize < a.a1.toNat + a.a2.toNat →
        exec (.codecEncode e) s = .next (s.raise c .eSize)) ∧
      (s.isOpen e = true → a.a1.toNat + a.a2.toNat ≤ s.cfg.hostMemSize →
        s.cfg.bufSize e < a.a0.toNat + (32 + pad8 a.a2.toNat + s.cfg.resvPad) →
        exec (.codecEncode e) s = .next (s.raise c .eSize)) ∧
      (s.isOpen e = true → a.a1.toNat + a.a2.toNat ≤ s.cfg.hostMemSize →
        a.a0.toNat + (32 + pad8 a.a2.toNat + s.cfg.resvPad) ≤ s.cfg.bufSize e → ∃ x : Locals,
        execTimes (.codecEncode e) 2 s = .next
          (((s.setChan c { s.chan c with loc := x }).encode e a.a0.toNat (s.readMem .hostMem a.a1.toNat a.a2.toNat)
            a.a3 a.a4 a.a5 a.a6 a.a7).finish c .ok
            [u32 (32 + pad8 a.a2.toNat + s.cfg.resvPad),
             (crc16 s.cfg (s.readMem .hostMem a.a1.toNat a.a2.toNat)).setWidth 32])))

/-- R607: the checks of CODEC.DECODE in order, its completion in one step for a payload past the buffer's end, and in two
(log 5) otherwise. The race fault is R212's. -/
def Obligations.CodecDecodeCompletes : Prop :=
  ∀ (s : State) (e : Engine), (s.chan e.channel).pc = .dec1 →
    let c := e.channel
    let o := (s.chan c).opd.a0.toNat
    let h := hdrOf (s.readMem (.buf e) o 32)
    let p := s.readMem (.buf e) (o + 32) h.frameSz.toNat
    (e = .rx → s.worker.pc ≠ .dead → exec (.codecDecode e) s = .next (s.raise c .eBusy)) ∧
    ((e = .rx → s.worker.pc = .dead) →
      (s.isOpen e = false → exec (.codecDecode e) s = .next (s.raise c .eNotOpen)) ∧
      (s.isOpen e = true → s.cfg.bufSize e < o + 32 → exec (.codecDecode e) s = .next (s.raise c .eSize)) ∧
      (s.isOpen e = true → o + 32 ≤ s.cfg.bufSize e → s.cfg.bufSize e < o + 32 + h.frameSz.toNat →
        exec (.codecDecode e) s = .next ({ s with faultBufRace := s.faultBufRace ||
            (decide (e = Engine.rx) && s.raced e o 32) }.finish c .ok
          [3#32, h.ident, h.packId, h.packSz, h.frameId, h.numFrames, h.mtu, h.frameSz, h.crc2 ++ h.crc, 0#32])) ∧
      (s.isOpen e = true → o + 32 + h.frameSz.toNat ≤ s.cfg.bufSize e → ∃ x : Locals,
        execTimes (.codecDecode e) 2 s = .next
          ({ s.setChan c { s.chan c with loc := x } with faultBufRace := s.faultBufRace ||
              (decide (e = Engine.rx) && (s.raced e o 32 || s.raced e (o + 32) h.frameSz.toNat)) }.finish c .ok
            [if h.crc ≠ h.crc2 then 2#32 else if crc16 s.cfg p = h.crc then 0#32 else 1#32,
             h.ident, h.packId, h.packSz, h.frameId, h.numFrames, h.mtu, h.frameSz, h.crc2 ++ h.crc,
             if h.crc = h.crc2 then (crc16 s.cfg p).setWidth 32 else 0#32])))

/-- R608: the checks of CODEC.CRC in order, and its completion. The race fault is R212's. -/
def Obligations.CodecCrcCompletes : Prop :=
  ∀ (s : State) (e : Engine), (s.chan e.channel).pc = .crc1 →
    let c := e.channel
    let a := (s.chan c).opd
    (e = .rx → s.worker.pc ≠ .dead → exec (.codecCrc e) s = .next (s.raise c .eBusy)) ∧
    ((e = .rx → s.worker.pc = .dead) →
      (s.isOpen e = false → exec (.codecCrc e) s = .next (s.raise c .eNotOpen)) ∧
      (s.isOpen e = true → s.cfg.bufSize e < a.a0.toNat + a.a1.toNat →
        exec (.codecCrc e) s = .next (s.raise c .eSize)) ∧
      (s.isOpen e = true → a.a0.toNat + a.a1.toNat ≤ s.cfg.bufSize e →
        exec (.codecCrc e) s = .next
          ({ s with faultBufRace := s.faultBufRace ||
              (decide (e = Engine.rx) && s.raced e a.a0.toNat a.a1.toNat) }.finish c .ok
            [(crc16 s.cfg (s.readMem (.buf e) a.a0.toNat a.a1.toNat)).setWidth 32])))

/-- R603, R604, R605, R607: decoding the frame that `Encode` left gives its fields back and verifies it, whatever the CRC
function. -/
def Obligations.EncodedFrameVerifies : Prop :=
  ∀ (s : State) (e : Engine) (p : List Byte) (mtu packId frameId numFrames packSz : U32),
    let c := e.channel
    let o := (s.chan c).opd.a0.toNat
    let t := s.encode e o p mtu packId frameId numFrames packSz
    (s.chan c).pc = .dec1 → s.isOpen e = true → (e = .rx → s.worker.pc = .dead) → p.length < 2 ^ 32 →
    o + 32 + p.length ≤ s.cfg.bufSize e →
    ∃ u, execTimes (.codecDecode e) 2 t = .next u ∧ (u.chan c).status = 0#32 ∧ (u.chan c).busy = false ∧
      (u.chan c).res.get 0 = 0#32 ∧ (u.chan c).res.get 1 = s.cfg.guid ∧ (u.chan c).res.get 2 = packId ∧
      (u.chan c).res.get 3 = packSz ∧ (u.chan c).res.get 4 = frameId ∧ (u.chan c).res.get 5 = numFrames ∧
      (u.chan c).res.get 6 = mtu ∧ (u.chan c).res.get 7 = u32 p.length ∧
      (u.chan c).res.get 8 = crc16 s.cfg p ++ crc16 s.cfg p ∧ (u.chan c).res.get 9 = (crc16 s.cfg p).setWidth 32

/-! ## TX Framer -/

/-- R701. -/
def Obligations.TxInitCompletes : Prop :=
  ∀ s : State, s.chTx.pc = .txInit →
    (s.openTx = false → s.cfg.platformOkTx = false → exec .txInit s = .next (s.raise .tx .eResource)) ∧
    (s.openTx = false → s.cfg.platformOkTx = true → s.cfg.mapOkTx = false →
      exec .txInit s = .next (s.raise .tx .eMap)) ∧
    (s.openTx = true ∨ s.cfg.platformOkTx = true ∧ s.cfg.mapOkTx = true →
      exec .txInit s = .next ({ s with openTx := true, cfgMtu := 0#32, packId := 0#32, txInited := true }.finish .tx .ok
        [u32 s.cfg.bufSizeTx, u32 s.cfg.bufPhysTx]))

/-- R702. The open engine is closed in two steps (log 5). -/
def Obligations.TxCloseCompletes : Prop :=
  ∀ s : State, s.chTx.pc = .tcl1 →
    (s.openTx = false → exec .txClose s = .next ({ s with txInited := false }.finish .tx .ok [0#32])) ∧
    (s.openTx = true → execTimes .txClose 2 s =
      .next ({ (s.regWrite (.dmac .tx .control) 0#32).setLine .dtx { masked := true, latched := false } with
        openTx := false, txInited := false }.finish .tx .ok [0#32]))

/-- R703, R710: TX.SETMTU stores the raw value and reports the normalised one, which under a legal configuration is a
multiple of 8 in `[MIN_MTU, MAX_MTU]`. -/
def Obligations.TxSetMtuCompletes : Prop :=
  ∀ s : State, s.chTx.pc = .txSetMtu →
    (s.txInited = false → exec .txSetMtu s = .next (s.raise .tx .eNotOpen)) ∧
    (s.txInited = true → exec .txSetMtu s =
      .next ({ s with cfgMtu := s.chTx.opd.a0 }.finish .tx .ok [u32
        (if s.chTx.opd.a0 ≠ 0#32 ∧ s.cfg.minMtu ≤ s.chTx.opd.a0.toNat ∧ s.chTx.opd.a0.toNat ≤ s.cfg.maxMtu
          then rd8 s.chTx.opd.a0.toNat else rd8 (s.cfg.maxFrameSize - 32 - s.cfg.resvPad))])) ∧
    (s.cfg.wf = true → ∀ c : U32, normMtu s.cfg c % 8 = 0 ∧ s.cfg.minMtu ≤ normMtu s.cfg c ∧
      normMtu s.cfg c ≤ s.cfg.maxMtu)

/-- R704: four steps. -/
def Obligations.TxResetCompletes : Prop :=
  ∀ s : State, s.chTx.pc = .tr1 →
    (s.txInited = false → exec .txReset s = .next (s.raise .tx .eNotOpen)) ∧
    (s.txInited = true → ∃ ls : Lines, execTimes .txReset 4 s =
      .next ({ s with mtx := { reset := 0#32, txSrcSel := s.chTx.opd.a0 }, lines := ls }.finish .tx .ok [0#32]) ∧
      ∃ u, execTimes .txReset 2 s = .next u ∧ u.mtx.reset = 1#32)

/-- R705, R710, R711, R712: the checks of TX.WRITE in order; planning a packet writes the normalised MTU back, and either
refuses the packet or numbers it and chooses the mode. -/
def Obligations.TxWriteChecksAndPlans : Prop :=
  ∀ s : State,
    (s.chTx.pc = .tw1 →
      (s.txInited = false ∨ s.openTx = false → exec .txWrite s = .next (s.raise .tx .eNotOpen)) ∧
      (s.txInited = true → s.openTx = true → s32 s.chTx.opd.a1 ≤ 0 → exec .txWrite s = .next (s.raise .tx .eSize)) ∧
      (s.txInited = true → s.openTx = true → 0 < s32 s.chTx.opd.a1 →
        s.cfg.hostMemSize < s.chTx.opd.a0.toNat + s.chTx.opd.a1.toNat →
        exec .txWrite s = .next (s.raise .tx .eSize)) ∧
      (s.txInited = true → s.openTx = true → 0 < s32 s.chTx.opd.a1 →
        s.chTx.opd.a0.toNat + s.chTx.opd.a1.toNat ≤ s.cfg.hostMemSize →
        exec .txWrite s = .next (s.gotoWith .tx .tw2 { s.chTx.loc with n := s.chTx.opd.a1.toNat }))) ∧
    (s.chTx.pc = .tw2 →
      let m := normMtu s.cfg s.cfgMtu
      let nf := ceilDiv s.chTx.loc.n m
      (s.cfg.bufSizeTx ≤ nf * (32 + pad8 m + s.cfg.resvPad) →
        exec .txWrite s = .next ({ s with cfgMtu := u32 m }.raise .tx .ePacketTooLarge)) ∧
      (nf * (32 + pad8 m + s.cfg.resvPad) < s.cfg.bufSizeTx →
        exec .txWrite s = .next ({ s with cfgMtu := u32 m, packId := s.packId + 1#32 }.gotoWith .tx
          (if nf ≤ s.cfg.bpThreshold then .tsEnc else .tbEnc)
          { s.chTx.loc with m := m, nf := nf, pid := s.packId + 1#32, i := 0, off := 0 }) ∧
        (s.cfg.wf = true → 0 < s.chTx.loc.n → ∀ i, i < nf →
          1 ≤ frameSize s.chTx.loc.n m nf i ∧ frameSize s.chTx.loc.n m nf i ≤ m ∧
          i * footprint s.cfg m + footprint s.cfg (frameSize s.chTx.loc.n m nf i) < s.cfg.bufSizeTx)))

/-- R325, R713, R714, R718: staging a packet, one step per frame, lays all its frames back to back from offset 0, each with
the packet's header fields and its part of the host's bytes, and hands the whole range to one flush; and every step of that
flush is one of `DmaWrite`, whose other status than OK ends the command. -/
def Obligations.TxStagedPacketLayout : Prop :=
  (∀ s : State, s.cfg.wf = true → s.chTx.pc = .tsEnc → s.packetInRange s.chTx.loc → s.chTx.loc.i = 0 →
    let x := s.chTx.loc
    let last := frameSize x.n x.m x.nf (x.nf - 1)
    let total := (x.nf - 1) * footprint s.cfg x.m + footprint s.cfg last
    ∃ t : State, execTimes .txWrite x.nf s = .next t ∧
      t = { s with chTx := t.chTx, bufTx := t.bufTx, faultBufRace := t.faultBufRace } ∧
      t.chTx.pc = .tsFlush .d1 ∧ t.chTx.loc.dma.off = 0 ∧ t.chTx.loc.dma.size = u32 total ∧
      t.chTx.loc.dma.cyc = false ∧ t.chTx.loc.dma.cnf = true ∧ total < s.cfg.bufSizeTx ∧
      last = x.n - x.m * (x.nf - 1) ∧
      (∀ i, i < x.nf →
        t.readMem (.buf .tx) (i * footprint s.cfg x.m) (footprint s.cfg (frameSize x.n x.m x.nf i)) =
          frameBytes s.cfg (s.readMem .hostMem (s.chTx.opd.a0.toNat + i * x.m) (frameSize x.n x.m x.nf i)) (u32 x.m)
            x.pid (u32 i) (u32 x.nf) (u32 x.n)) ∧
      ∀ a, total ≤ a → t.byteAt (.buf .tx) a = s.byteAt (.buf .tx) a) ∧
  ∀ (s : State) (l : DmaLabel), s.chTx.pc = .tsFlush l →
    exec .txWrite s =
      .next ((dmaStep .tx l s.chTx.loc.dma s).runAs .tx .tsFlush (fun _ t => t.goto .tx .twDone) s)

/-- R715, R716, R717, R718, R720: the steps of the backpressure machine; every step of its flushes, which is one of
`DmaWrite`, and what follows a flush; and the results. -/
def Obligations.TxBackpressureSteps : Prop :=
  ∀ s : State,
    let x := s.chTx.loc
    let fs := frameSize x.n x.m x.nf x.i
    (s.chTx.pc = .tbEnc → ∃ d : DmaLocals,
      exec .txWrite s = .next ((s.encode .tx x.off (s.readMem .hostMem (s.chTx.opd.a0.toNat + x.i * x.m) fs) (u32 x.m)
        x.pid (u32 x.i) (u32 x.nf) (u32 x.n)).gotoWith .tx (.tbFlush .d1) { x with dma := d }) ∧
      d.off = x.off ∧ d.size = u32 (footprint s.cfg fs) ∧ d.cyc = false ∧ d.cnf = true) ∧
    (let flushed (t : State) : State := t.gotoWith .tx
        (if (x.i + 1) % s.cfg.bpThrottleEvery = 0 ∧ x.i + 1 < x.nf then .tbThr
          else if x.i + 1 < x.nf then .tbEnc else .tbEob)
        { x with i := x.i + 1, off := x.off + footprint s.cfg fs }
     (s.chTx.pc = .tbFlush .back → exec .txWrite s = .next (flushed s)) ∧
     ∀ l, s.chTx.pc = .tbFlush l →
      exec .txWrite s = .next ((dmaStep .tx l x.dma s).runAs .tx .tbFlush (fun _ t => flushed t) s)) ∧
    (∀ l, s.chTx.pc = .tbEobf l →
      exec .txWrite s = .next ((dmaStep .tx l x.dma s).runAs .tx .tbEobf (fun _ t => t.goto .tx .twDone) s)) ∧
    (s.chTx.pc = .tbThr → ∃ y : Locals, y = { x with t0 := s.timeMs } ∧
      exec .txWrite s = .next (State.gotoWith { s with log := s.log ++ [Event.throttlePause (x.i - 1)] } .tx .tbPause y)) ∧
    (s.chTx.pc = .tbPause →
      (s.pick = .expire → x.t0 + s.cfg.bpPauseMs ≤ s.timeMs ∨ s.cfg.timeAbstract = true →
        exec .txWrite s = .next (s.goto .tx .tbEnc)) ∧
      (s.timeMs < x.t0 + s.cfg.bpPauseMs → s.cfg.timeAbstract = false → exec .txWrite s = .next s)) ∧
    (s.chTx.pc = .tbEob → ∃ d : DmaLocals,
      exec .txWrite s = .next ((s.encode .tx 0 [] (u32 x.m) x.pid (u32 x.nf) (u32 x.nf) (u32 x.n)).gotoWith .tx
        (.tbEobf .d1) { x with dma := d }) ∧
      d.off = 0 ∧ d.size = u32 (32 + s.cfg.resvPad) ∧ d.cyc = false ∧ d.cnf = true) ∧
    (s.chTx.pc = .tsFlush .back ∨ s.chTx.pc = .tbEobf .back → exec .txWrite s = .next (s.goto .tx .twDone)) ∧
    (∀ mk : DmaLabel → Label, mk = .tsFlush ∨ mk = .tbFlush ∨ mk = .tbEobf → s.chTx.pc = mk .wp3 → s.pick = .fail →
      s.cfg.busMayFail = true → exec .txWrite s = .next (s.raise .tx .eBus)) ∧
    (s.chTx.pc = .twDone → exec .txWrite s = .next (s.finish .tx .ok [u32 x.n, x.pid, u32 x.nf, u32 x.m]))

/-! ## RX Reassembler -/

/-- R801. -/
def Obligations.RxInitCompletes : Prop :=
  ∀ s : State, s.chRx.pc = .rxInit →
    (s.worker.pc ≠ .dead → exec .rxInit s = .next (s.raise .rx .eBusy)) ∧
    (s.worker.pc = .dead → s.openRx = false → s.cfg.platformOkRx = false →
      exec .rxInit s = .next (s.raise .rx .eResource)) ∧
    (s.worker.pc = .dead → s.openRx = false → s.cfg.platformOkRx = true → s.cfg.mapOkRx = false →
      exec .rxInit s = .next (s.raise .rx .eMap)) ∧
    (s.worker.pc = .dead → s.openRx = true ∨ s.cfg.platformOkRx = true ∧ s.cfg.mapOkRx = true →
      exec .rxInit s = .next ({ s with
        openRx := true
        rx := { s.rx with
          inited := true, state := .idle, configured := false, count := 0#32, nextOff := 0, workerRet := 0#32
          tmoCount := 0, done := true } }.finish .rx .ok [u32 s.cfg.bufSizeRx, u32 s.cfg.bufPhysRx]))

/-- R802: idempotent at its first step; else, one step each (log 17), `done` is set whether or not the worker lives, the
worker is waited out, and the line, the controller, the engine and the reassembler are closed; with a worker dead from the
start seven steps together do so. -/
def Obligations.RxCloseCompletes : Prop :=
  ∀ s : State,
    (s.chRx.pc = .rc1 → s.rx.inited = false → s.openRx = false →
      exec .rxClose s = .next (s.finish .rx .ok [0#32])) ∧
    (s.chRx.pc = .rc1 → s.rx.inited = true ∨ s.openRx = true → exec .rxClose s = .next (s.goto .rx .rc2)) ∧
    (s.chRx.pc = .rc2 → exec .rxClose s = .next ({ s with rx := { s.rx with done := true } }.goto .rx .rc3)) ∧
    (s.chRx.pc = .rc3 → s.worker.pc ≠ .dead → exec .rxClose s = .next s) ∧
    (s.chRx.pc = .rc3 → s.worker.pc = .dead → exec .rxClose s = .next (s.goto .rx .rc4)) ∧
    (s.chRx.pc = .rc4 → exec .rxClose s =
      .next ((s.setLine .mrx { masked := true, latched := false }).goto .rx .rc5)) ∧
    (s.chRx.pc = .rc5 → exec .rxClose s =
      .next ((if s.openRx = true then s.regWrite (.dmac .rx .control) 0#32 else s).goto .rx .rc6)) ∧
    (s.chRx.pc = .rc6 → exec .rxClose s = .next (State.goto
      (if s.openRx = true then { s.setLine .drx { masked := true, latched := false } with openRx := false } else s)
      .rx .rc7)) ∧
    (s.chRx.pc = .rc7 → exec .rxClose s =
      .next ({ s with rx := { s.rx with inited := false, state := .idle } }.finish .rx .ok [0#32])) ∧
    (s.chRx.pc = .rc1 → s.worker.pc = .dead → s.rx.inited = true ∨ s.openRx = true → ∃ t : State,
      execTimes .rxClose 7 s = .next t ∧
      t = { s with chRx := t.chRx, openRx := false, drx := t.drx, lines := t.lines,
                   rx := { s.rx with done := true, inited := false, state := .idle } } ∧
      t.chRx.busy = false ∧ t.chRx.status = 0#32 ∧ t.chRx.res.get 0 = 0#32 ∧ t.chRx.pc = .idle ∧
      t.line .mrx = { masked := true, latched := false } ∧
      (s.openRx = true → t.line .drx = { masked := true, latched := false } ∧
        t.drx = { s.drx with control := 0#32, queue := [] }) ∧
      (s.openRx = false → t.drx = s.drx))

/-- R803: the checks of RX.RESET; with a dead worker what its steps together leave, the coefficients among it when bit 2 of
`a2` asks for them; and the register write of each step, so their order. -/
def Obligations.RxResetConfigures : Prop :=
  (∀ s : State, s.chRx.pc = .rr1 →
    let a := s.chRx.opd
    let n := if a.a2.getLsbD 2 then s.cfg.frCoefCount else 0
    (s.rx.inited = false → exec .rxReset s = .next (s.raise .rx .eNotOpen)) ∧
    (s.rx.inited = true → s.worker.pc ≠ .dead → exec .rxReset s = .next (s.raise .rx .eBusy)) ∧
    (s.rx.inited = true → s.worker.pc = .dead → s.cfg.frCoefCount ≤ 4 → ∃ t : State,
      execTimes .rxReset (11 + n) s = .next t ∧
      t = { s with chRx := t.chRx, lines := t.lines, rx := { s.rx with configured := true }, mrx :=
        { reset := 0#32, rxEnable := 1#32, loopBw := a.a0, eqGain := a.a1
          bypassCoding := if a.a2.getLsbD 0 then 1#32 else 0#32, bypassEq := if a.a2.getLsbD 1 then 1#32 else 0#32
          detThresh := a.a3, frCoef0 := if 0 < n then a.a4 else s.mrx.frCoef0
          frCoef1 := if 1 < n then a.a5 else s.mrx.frCoef1, frCoef2 := if 2 < n then a.a6 else s.mrx.frCoef2
          frCoef3 := if 3 < n then a.a7 else s.mrx.frCoef3, rxq := [] } } ∧
      t.chRx.busy = false ∧ t.chRx.status = 0#32 ∧ t.chRx.res.get 0 = 0#32 ∧ t.chRx.pc = .idle)) ∧
  ∀ s : State,
    let a := s.chRx.opd
    let writes (r : RReg) (v : U32) (l : Label) : Result := .next ((s.regWrite (.mrx r) v).goto .rx l)
    (s.chRx.pc = .rr1 → s.rx.inited = true → s.worker.pc = .dead → exec .rxReset s = .next (s.goto .rx .rr2)) ∧
    (s.chRx.pc = .rr2 → exec .rxReset s = writes .rxEnable 0#32 .rr3) ∧
    (s.chRx.pc = .rr3 → exec .rxReset s = writes .reset 1#32 .rr4) ∧
    (s.chRx.pc = .rr4 → exec .rxReset s = writes .loopBw a.a0 .rr5) ∧
    (s.chRx.pc = .rr5 → exec .rxReset s = writes .eqGain a.a1 .rr6) ∧
    (s.chRx.pc = .rr6 → exec .rxReset s = writes .bypassCoding (if a.a2.getLsbD 0 then 1#32 else 0#32) .rr7) ∧
    (s.chRx.pc = .rr7 → exec .rxReset s = writes .bypassEq (if a.a2.getLsbD 1 then 1#32 else 0#32) .rr8) ∧
    (s.chRx.pc = .rr8 → exec .rxReset s = .next ((s.regWrite (.mrx .detThresh) a.a3).gotoWith .rx
      (if a.a2.getLsbD 2 = true ∧ 0 < s.cfg.frCoefCount then .rr9 else .rr10) { s.chRx.loc with k := 0 })) ∧
    (∀ k : Fin 4, s.chRx.pc = .rr9 → s.chRx.loc.k = k.val → exec .rxReset s =
      (let v := match k with | 0 => a.a4 | 1 => a.a5 | 2 => a.a6 | 3 => a.a7
       if k.val + 1 < s.cfg.frCoefCount then
         .next ((s.regWrite (.mrx (.frCoef k)) v).gotoWith .rx .rr9 { s.chRx.loc with k := k.val + 1 })
       else writes (.frCoef k) v .rr10)) ∧
    (s.chRx.pc = .rr10 → exec .rxReset s = writes .reset 0#32 .rr11) ∧
    (s.chRx.pc = .rr11 → exec .rxReset s = writes .rxEnable 1#32 .rr12) ∧
    (s.chRx.pc = .rr12 → exec .rxReset s =
      .next ({ s with rx := { s.rx with configured := true } }.finish .rx .ok [0#32]))

/-- R804, R805, R150. -/
def Obligations.RxStartStopComplete : Prop :=
  ∀ s : State,
    (s.chRx.pc = .rxStart → s.rx.inited = false → exec .rxStart s = .next (s.raise .rx .eNotOpen)) ∧
    (s.chRx.pc = .rxStart → s.rx.inited = true →
      exec .rxStart s = .next ((s.regWrite (.mrx .rxEnable) 1#32).finish .rx .ok [0#32])) ∧
    (s.chRx.pc = .rp1 → s.rx.inited = false → exec .rxStop s = .next (s.raise .rx .eNotOpen)) ∧
    (s.chRx.pc = .rp1 → s.rx.inited = true → ∃ t : State, execTimes .rxStop 2 s = .next t ∧
      t = { s with chRx := t.chRx, mrx := { s.mrx with rxEnable := 0#32 }, lines := t.lines
                   rx := { s.rx with done := if s.worker.pc = .dead then s.rx.done else true } } ∧
      t.mrx.rxq = s.mrx.rxq ∧ t.level .mrx = false ∧
      t.chRx.busy = false ∧ t.chRx.status = 0#32 ∧ t.chRx.res.get 0 = 0#32 ∧ t.chRx.pc = .idle)

/-- R810, R811, R812, R814, R815: the consumer, step by step, but for the header test of `FirstHeaderValidated`. -/
def Obligations.RxReceiveSteps : Prop :=
  ∀ s : State,
    let x := s.chRx.loc
    let timedOut : State := State.raise { s with rx := { s.rx with done := true, state := .timedOut } } .rx .rxTimeout
    let complete : State := State.finish { s with rx := { s.rx with done := true, state := .complete } } .rx .ok
      [s.rx.hdr0.packSz, s.rx.hdr0.numFrames, s.rx.count]
    (s.chRx.pc = .rv1 →
      (s.rx.inited = false ∨ s.openRx = false → exec .rxReceive s = .next (s.raise .rx .eNotOpen)) ∧
      (s.rx.inited = true → s.openRx = true → s.rx.configured = false →
        exec .rxReceive s = .next (s.raise .rx .rxNotConfigured)) ∧
      (s.rx.inited = true → s.openRx = true → s.rx.configured = true →
        exec .rxReceive s = .next (s.goto .rx .rv2))) ∧
    (s.chRx.pc = .rv2 → exec .rxReceive s = .next (if s.worker.pc = .dead then s.goto .rx .rv3 else s)) ∧
    (s.chRx.pc = .rv3 → exec .rxReceive s = .next ({ s with rx :=
      { s.rx with state := .arming, count := 0#32, nextOff := 0, workerRet := 0#32, tmoCount := 0
                  configured := false } }.goto .rx .rv4)) ∧
    (s.chRx.pc = .rv4 → ∃ w : Worker, w.pc = .w1 ∧
      exec .rxReceive s = .next ({ s with rx := { s.rx with done := false, state := .receiving }, worker := w }.gotoWith
        .rx .rv5 { x with deadline := s.timeMs + s.cfg.rxFirstDeadlineMs })) ∧
    (s.chRx.pc = .rv5 →
      (s.pick = .wake → 1 ≤ s.rx.count.toNat ∨ s.rx.workerRet ≠ 0#32 →
        exec .rxReceive s = .next (s.goto .rx .rv6)) ∧
      (s.pick = .expire → s.rx.count = 0#32 → s.rx.workerRet = 0#32 → x.deadline ≤ s.timeMs ∨ s.cfg.timeAbstract = true →
        exec .rxReceive s = .next (s.goto .rx .rv6)) ∧
      (s.rx.count = 0#32 → s.rx.workerRet = 0#32 → s.timeMs < x.deadline → s.cfg.timeAbstract = false →
        exec .rxReceive s = .next s)) ∧
    (s.chRx.pc = .rv6 →
      exec .rxReceive s = .next (if s.rx.count = 0#32 then timedOut else s.goto .rx .rv7)) ∧
    (s.chRx.pc = .rv8 →
      (s.rx.hdr0.numFrames.toNat ≤ s.rx.count.toNat → exec .rxReceive s = .next complete) ∧
      (s.rx.count.toNat < s.rx.hdr0.numFrames.toNat → s.rx.workerRet ≠ 0#32 →
        exec .rxReceive s = .next timedOut) ∧
      (s.rx.count.toNat < s.rx.hdr0.numFrames.toNat → s.rx.workerRet = 0#32 →
        exec .rxReceive s = .next (s.gotoWith .rx .rv9
          { x with c0 := s.rx.count, deadline := s.timeMs + s.cfg.rxFrameDeadlineMs }))) ∧
    (s.chRx.pc = .rv9 →
      (s.pick = .wake → x.c0.toNat < s.rx.count.toNat ∨ s.rx.workerRet ≠ 0#32 →
        exec .rxReceive s = .next (s.goto .rx .rv8)) ∧
      (s.pick = .expire → s.rx.count.toNat ≤ x.c0.toNat → s.rx.workerRet = 0#32 →
        x.deadline ≤ s.timeMs ∨ s.cfg.timeAbstract = true → exec .rxReceive s = .next (s.goto .rx .rv10)) ∧
      (s.rx.count.toNat ≤ x.c0.toNat → s.rx.workerRet = 0#32 → s.timeMs < x.deadline → s.cfg.timeAbstract = false →
        exec .rxReceive s = .next s)) ∧
    (s.chRx.pc = .rv10 → exec .rxReceive s =
      .next (if s.rx.hdr0.numFrames.toNat ≤ s.rx.count.toNat then complete else timedOut))

/-- R813: the first header's checks in order, each with its own code, and the header kept when all pass. -/
def Obligations.FirstHeaderValidated : Prop :=
  ∀ s : State, s.chRx.pc = .rv7 →
    let o := (s.tableAt 0).toNat
    let h := hdrOf (s.readMem (.buf .rx) o 32)
    let u : State := { s with faultBufRace := s.faultBufRace || s.raced .rx o 32 }
    let failed (st : Status) : State := State.raise { u with rx := { u.rx with done := true, state := .failed } } .rx st
    exec .rxReceive s = .next
      (if h.ident ≠ s.cfg.guid then failed .rxInvalidGuid
      else if h.packSz = 0#32 then failed .rxPackSzZero
      else if h.numFrames = 0#32 then failed .rxNumFramesZero
      else if h.frameSz = 0#32 then failed .rxFrameSzZero
      else if s.cfg.rxFrameSzMax < h.frameSz.toNat then failed .rxFrameSzTooLarge
      else if h.mtu = 0#32 then failed .rxMtuZero
      else { u with rx := { u.rx with hdr0 := h } }.goto .rx .rv8)

/-- R820, R821: the checks and holds of RX.READ, and from RD3 to the end: one step per recorded entry, every copied byte
inside the destination, never more valid bytes than copied ones, and the table discarded. -/
def Obligations.RxReadCompletes : Prop :=
  ∀ s : State,
    (s.chRx.pc = .rd1 →
      (s.rx.inited = false ∨ s.openRx = false → exec .rxRead s = .next (s.raise .rx .eNotOpen)) ∧
      (s.rx.inited = true → s.openRx = true → exec .rxRead s = .next (s.goto .rx .rd2))) ∧
    (s.chRx.pc = .rd2 → exec .rxRead s = .next (if s.worker.pc = .dead then s.goto .rx .rd3 else s)) ∧
    (s.chRx.pc = .rd3 → s.cfg.hostMemSize < s.chRx.opd.a0.toNat + s.chRx.opd.a1.toNat →
      exec .rxRead s = .next (s.raise .rx .eSize)) ∧
    (s.chRx.pc = .rd3 → s.chRx.opd.a0.toNat + s.chRx.opd.a1.toNat ≤ s.cfg.hostMemSize →
      ∃ t : State, execTimes .rxRead (2 + s.rx.count.toNat) s = .next t ∧
        t.chRx.busy = false ∧ t.chRx.status = 0#32 ∧ t.chRx.pc = .idle ∧
        (t.chRx.res.get 0).toNat ≤ (t.chRx.res.get 1).toNat ∧
        (t.chRx.res.get 1).toNat ≤ s.chRx.opd.a1.toNat ∧ t.chRx.res.get 2 = s.rx.count ∧
        t.rx = { s.rx with count := 0#32, state := .idle, crcStatus := t.rx.crcStatus } ∧
        (∀ a, a < s.chRx.opd.a0.toNat ∨ s.chRx.opd.a0.toNat + (t.chRx.res.get 1).toNat ≤ a →
          t.byteAt .hostMem a = s.byteAt .hostMem a) ∧
        ∀ e a, t.byteAt (.buf e) a = s.byteAt (.buf e) a)

/-- R821, R605: the step for one recorded entry: skipped and marked, or copied whole whatever its verdict, counted only
when verified, logged only when not. The race fault is R212's, for each range read. -/
def Obligations.RxReadEntryStep : Prop :=
  ∀ s : State, s.chRx.pc = .rd4 →
    let x := s.chRx.loc
    let o := (s.tableAt x.j).toNat
    let h := hdrOf (s.readMem (.buf .rx) o 32)
    let p := s.readMem (.buf .rx) (o + 32) h.frameSz.toNat
    let next (cur valid : Nat) (u : State) : State := u.gotoWith .rx (if x.j + 1 < x.total then .rd4 else .rd5)
      { x with j := x.j + 1, cur := cur, valid := valid }
    ∃ u : State, exec .rxRead s = .next u ∧
      (s.cfg.bufSizeRx < o + 32 ∨ s.cfg.bufSizeRx < o + 32 + h.frameSz.toNat ∨
          s.chRx.opd.a1.toNat < x.cur + h.frameSz.toNat →
        u = next x.cur x.valid { s with
          faultBufRace := s.faultBufRace || (decide (o + 32 ≤ s.cfg.bufSizeRx) && s.raced .rx o 32), rx := u.rx } ∧
        u.crcStatusAt x.j = .notCopied) ∧
      (o + 32 + h.frameSz.toNat ≤ s.cfg.bufSizeRx → x.cur + h.frameSz.toNat ≤ s.chRx.opd.a1.toNat →
        ∃ v : Verdict, v = (if h.crc ≠ h.crc2 then .unverifiable else if crc16 s.cfg p = h.crc then .verified else .mismatch) ∧
        u = next (x.cur + h.frameSz.toNat) (if v = .verified then x.valid + h.frameSz.toNat else x.valid)
          { s with faultBufRace := s.faultBufRace || s.raced .rx o 32 || s.raced .rx (o + 32) h.frameSz.toNat
                   rx := u.rx, hostMem := u.hostMem
                   log := if v = .verified then s.log else s.log ++ [.crcEvent x.j v] } ∧
        u.crcStatusAt x.j = v ∧ u.readMem .hostMem (s.chRx.opd.a0.toNat + x.cur) h.frameSz.toNat = p ∧
        ∀ a, a < s.chRx.opd.a0.toNat + x.cur ∨ s.chRx.opd.a0.toNat + x.cur + h.frameSz.toNat ≤ a →
          u.byteAt .hostMem a = s.byteAt .hostMem a) ∧
      u.rx = { s.rx with crcStatus := u.rx.crcStatus } ∧ ∀ k, k ≠ x.j → u.crcStatusAt k = s.crcStatusAt k

/-- R830 to R837: the worker, step by step; each step of its DMA read is one of `DmaRead`, and a size error of it is
reported as an overflow. -/
def Obligations.WorkerSteps : Prop :=
  ∀ s : State,
    let w := s.worker
    let at_ (l : WLabel) (u : State) : State := { u with worker := { u.worker with pc := l } }
    let fatal (st : Status) : State := { s with rx := { s.rx with workerRet := st.code }, worker := { w with pc := .wx } }
    (w.pc = .dead → workerStep s = s) ∧
    (w.pc = .w1 → workerStep s = at_ (if s.rx.done then .wx else .w2) s) ∧
    (w.pc = .w2 → ∃ ls : Lines, workerStep s = { s with lines := ls, worker := { w with pc := .w3, t0 := s.timeMs } } ∧
      ∀ l, ls.get l = (if l = .mrx then { s.line l with masked := false } else s.line l).latch (s.level l)) ∧
    (w.pc = .w3 →
      (s.pick = .wake → (s.line .mrx).latched = true → workerStep s =
        { s.setLine .mrx { masked := (s.line .mrx).masked, latched := false } with
          worker := { w with pc := .w4, r := .pending } }) ∧
      (s.pick = .expire → (s.line .mrx).latched = false →
        w.t0 + s.cfg.rxIrqTimeoutMs ≤ s.timeMs ∨ s.cfg.timeAbstract = true →
        workerStep s = { s with worker := { w with pc := .w4, r := .none } }) ∧
      (s.pick = .fail → s.cfg.busMayFail = true →
        workerStep s = { s with worker := { w with pc := .w4, r := .error } })) ∧
    (w.pc = .w4 →
      (s.rx.done = true → workerStep s = at_ .wx s) ∧
      (s.rx.done = false → w.r = .error → workerStep s = fatal .rxIrqError) ∧
      (s.rx.done = false → w.r = .none → s.rx.count ≠ 0#32 → workerStep s = at_ .w1 s) ∧
      (s.rx.done = false → w.r = .none → s.rx.count = 0#32 → s.rx.tmoCount < s.cfg.rxIrqRetries →
        workerStep s = at_ .w1 { s with rx := { s.rx with tmoCount := s.rx.tmoCount + 1 } }) ∧
      (s.rx.done = false → w.r = .none → s.rx.count = 0#32 → s.cfg.rxIrqRetries ≤ s.rx.tmoCount →
        workerStep s = { s with
          rx := { s.rx with tmoCount := s.rx.tmoCount + 1, workerRet := Status.rxTimeout.code }
          worker := { w with pc := .wx } }) ∧
      (s.rx.done = false → w.r = .pending → workerStep s = at_ .w5 s)) ∧
    (w.pc = .w5 →
      let len := s.regRead (.mrx .payloadLen)
      (len = 0#32 ∨ len ∈ s.cfg.rxLenInvalid → workerStep s = fatal .rxFrameInvalid) ∧
      (len ≠ 0#32 → len ∉ s.cfg.rxLenInvalid → workerStep s = { s with worker := { w with pc := .w6, len := len } })) ∧
    (w.pc = .w6 →
      (s.rx.count.toNat = s.cfg.tableCap → workerStep s = fatal .rxOverflow) ∧
      (s.rx.count.toNat ≠ s.cfg.tableCap → ∃ d : DmaLocals, d.off = s.rx.nextOff ∧ d.size = w.len ∧
        workerStep s = { s with worker := { w with pc := .w7 .d1, off := s.rx.nextOff, dma := d } })) ∧
    (∀ l, w.pc = .w7 l → workerStep s =
      match dmaStep .rx l w.dma s with
      | .go l' d t => { t with worker := { w with pc := .w7 l', dma := d } }
      | .ret .ok _ t => { t with worker := { w with pc := .w8 } }
      | .ret .eSize _ t =>
        { t with rx := { t.rx with workerRet := Status.rxOverflow.code }, worker := { w with pc := .wx } }
      | .ret st _ t => { t with rx := { t.rx with workerRet := st.code }, worker := { w with pc := .wx } }
      | .blocked => s) ∧
    (w.pc = .w7 .d1 → s.openRx = true →
      s32 w.dma.size < 0 ∨ (s.cfg.bufSizeRx : Int) < (w.dma.off : Int) + s32 w.dma.size →
      workerStep s = fatal .rxOverflow) ∧
    (w.pc = .w7 .wp3 → s.pick = .fail → s.cfg.busMayFail = true → workerStep s = fatal .eBus) ∧
    (w.pc = .w7 .back → workerStep s = at_ .w8 s) ∧
    (w.pc = .w8 →
      (s.rx.done = true → workerStep s = at_ .wx s) ∧
      (s.rx.done = false → ∃ t : State, workerStep s = t ∧
        t = { s with worker := { w with pc := .w1 }, rx :=
          { s.rx with
            table := t.rx.table, count := s.rx.count + 1#32, tmoCount := 0
            nextOff := w.off + (match s.cfg.rxAdvance with
              | .rev2 => w.len.toNat + ((s.rx.count + 1#32).toNat - 1) + 4
              | .plain => w.len.toNat) } } ∧
        t.tableAt s.rx.count.toNat = u32 w.off ∧
        ∀ j, j ≠ s.rx.count.toNat → t.tableAt j = s.tableAt j)) ∧
    (w.pc = .wx → workerStep s =
      at_ .dead (s.setLine .mrx { masked := true, latched := false }))

/-- R815, R860: `rx_state` and `done` follow the consumer's label. -/
def Obligations.PhaseKeepsFollowingConsumer : Prop :=
  ∀ s t : State, s.Labelled → s.PhaseFollowsConsumer → step s = .next t → t.PhaseFollowsConsumer

/-- R110, R161, R513, R810, R830, R831, R836: a living worker keeps the RX engine to itself; while it works its code is 0
and its timeouts are within the budget. -/
def Obligations.WorkerKeepsEngine : Prop :=
  ∀ s t : State, s.WorkerOwns → step s = .next t → t.WorkerOwns ∧ (s.WorkerHealthy → t.WorkerHealthy)

/-- R211, R840, R841: the counter never runs ahead of the table, the table never past its capacity, and the offsets rise
strictly from 0 inside the buffer. -/
def Obligations.TableStaysOrdered : Prop :=
  ∀ s t : State, s.WorkerOwns → s.TableOrdered → step s = .next t → t.TableOrdered

/-! ## The whole machine -/

/-- Every memory and table keeps its canonical form. -/
def Obligations.MemoryStaysCanonical : Prop :=
  ∀ s t : State, s.Canonical → step s = .next t → t.Canonical

/-- R206: no step writes outside a byte space. -/
def Obligations.BytesStayInBounds : Prop :=
  ∀ s t : State, s.BytesInBounds → step s = .next t → t.BytesInBounds

/-- R20, R170, R920: sticky faults stay, the log only grows, and time advances by the clock alone, unless reset. -/
def Obligations.FaultsStayAndLogGrows : Prop :=
  ∀ (m : Move) (s t : State), m ≠ .reset → act m s = .next t →
    (s.faultDmaWild = true → t.faultDmaWild = true) ∧ (s.faultBufRace = true → t.faultBufRace = true) ∧
    (∃ es, t.log = s.log ++ es) ∧ (t.timeMs = if m = .clock then s.timeMs + 1 else s.timeMs) ∧ t.cfg = s.cfg

/-- The frame of every command, field by field: one step of it moves its own channel, whose arguments, word and latched
operands stay, and changes what its rule names, nothing else (R180, R905); a line of another space changes by the latch
rule at most (R408). A register write's own controller or core is framed register by register in `RegWriteEffects`. -/
def Obligations.CommandWritesOnlyItsOwn : Prop :=
  ∀ (i : Instr) (s t : State), exec i s = .next t → writesOnly i s t

/-- The frame of every command on the byte spaces: one step stores inside the range computed from the state it starts in,
and a step that has no such range stores nothing. -/
def Obligations.CommandStoresOnlyInRange : Prop :=
  ∀ (i : Instr) (s t : State), exec i s = .next t → ∀ (z : ByteSpace) (a : Nat),
    (∀ o n, storeRange i s = some (z, o, n) → a < o ∨ o + n ≤ a) → t.byteAt z a = s.byteAt z a
end

