-- ==== Sys2Proof/Laws/State.lean ====
section
/-! SUPPORT. What each named update of the state leaves alone: one lemma per field per update; and what reading a named
part gives after an update of it. -/

namespace Sys2Proof.Machine

variable (s : State) (c c' : Channel) (x : Chan) (e e' : Engine) (d : Dmac) (l l' : Space) (y : Line) (b : Bool)
  (z z' : ByteSpace) (m : Memory) (v : Event) (p : Label) (q : Locals) (st : Status) (vs : List U32) (n : Nat)
  (bs : List Byte) (r : Reg) (w : U32)

/-! ## `setChan` -/

@[simp] theorem State.setChan_issueStatus : (s.setChan c x).issueStatus = s.issueStatus := by cases c <;> rfl
@[simp] theorem State.setChan_openTx : (s.setChan c x).openTx = s.openTx := by cases c <;> rfl
@[simp] theorem State.setChan_openRx : (s.setChan c x).openRx = s.openRx := by cases c <;> rfl
@[simp] theorem State.setChan_bufTx : (s.setChan c x).bufTx = s.bufTx := by cases c <;> rfl
@[simp] theorem State.setChan_bufRx : (s.setChan c x).bufRx = s.bufRx := by cases c <;> rfl
@[simp] theorem State.setChan_hostMem : (s.setChan c x).hostMem = s.hostMem := by cases c <;> rfl
@[simp] theorem State.setChan_dtx : (s.setChan c x).dtx = s.dtx := by cases c <;> rfl
@[simp] theorem State.setChan_drx : (s.setChan c x).drx = s.drx := by cases c <;> rfl
@[simp] theorem State.setChan_mtx : (s.setChan c x).mtx = s.mtx := by cases c <;> rfl
@[simp] theorem State.setChan_mrx : (s.setChan c x).mrx = s.mrx := by cases c <;> rfl
@[simp] theorem State.setChan_lines : (s.setChan c x).lines = s.lines := by cases c <;> rfl
@[simp] theorem State.setChan_txInited : (s.setChan c x).txInited = s.txInited := by cases c <;> rfl
@[simp] theorem State.setChan_cfgMtu : (s.setChan c x).cfgMtu = s.cfgMtu := by cases c <;> rfl
@[simp] theorem State.setChan_packId : (s.setChan c x).packId = s.packId := by cases c <;> rfl
@[simp] theorem State.setChan_rx : (s.setChan c x).rx = s.rx := by cases c <;> rfl
@[simp] theorem State.setChan_worker : (s.setChan c x).worker = s.worker := by cases c <;> rfl
@[simp] theorem State.setChan_timeMs : (s.setChan c x).timeMs = s.timeMs := by cases c <;> rfl
@[simp] theorem State.setChan_log : (s.setChan c x).log = s.log := by cases c <;> rfl
@[simp] theorem State.setChan_faultDmaWild : (s.setChan c x).faultDmaWild = s.faultDmaWild := by cases c <;> rfl
@[simp] theorem State.setChan_faultBufRace : (s.setChan c x).faultBufRace = s.faultBufRace := by cases c <;> rfl
@[simp] theorem State.setChan_cfg : (s.setChan c x).cfg = s.cfg := by cases c <;> rfl
@[simp] theorem State.setChan_script : (s.setChan c x).script = s.script := by cases c <;> rfl
@[simp] theorem State.setChan_pick : (s.setChan c x).pick = s.pick := by cases c <;> rfl
@[simp] theorem State.setChan_draws : (s.setChan c x).draws = s.draws := by cases c <;> rfl
@[simp] theorem State.setChan_epoch : (s.setChan c x).epoch = s.epoch := by cases c <;> rfl
@[simp] theorem State.setChan_hostGot : (s.setChan c x).hostGot = s.hostGot := by cases c <;> rfl

/-! ## `setDmac` -/

@[simp] theorem State.setDmac_chTx : (s.setDmac e d).chTx = s.chTx := by cases e <;> rfl
@[simp] theorem State.setDmac_chRx : (s.setDmac e d).chRx = s.chRx := by cases e <;> rfl
@[simp] theorem State.setDmac_chBus : (s.setDmac e d).chBus = s.chBus := by cases e <;> rfl
@[simp] theorem State.setDmac_issueStatus : (s.setDmac e d).issueStatus = s.issueStatus := by cases e <;> rfl
@[simp] theorem State.setDmac_openTx : (s.setDmac e d).openTx = s.openTx := by cases e <;> rfl
@[simp] theorem State.setDmac_openRx : (s.setDmac e d).openRx = s.openRx := by cases e <;> rfl
@[simp] theorem State.setDmac_bufTx : (s.setDmac e d).bufTx = s.bufTx := by cases e <;> rfl
@[simp] theorem State.setDmac_bufRx : (s.setDmac e d).bufRx = s.bufRx := by cases e <;> rfl
@[simp] theorem State.setDmac_hostMem : (s.setDmac e d).hostMem = s.hostMem := by cases e <;> rfl
@[simp] theorem State.setDmac_mtx : (s.setDmac e d).mtx = s.mtx := by cases e <;> rfl
@[simp] theorem State.setDmac_mrx : (s.setDmac e d).mrx = s.mrx := by cases e <;> rfl
@[simp] theorem State.setDmac_lines : (s.setDmac e d).lines = s.lines := by cases e <;> rfl
@[simp] theorem State.setDmac_txInited : (s.setDmac e d).txInited = s.txInited := by cases e <;> rfl
@[simp] theorem State.setDmac_cfgMtu : (s.setDmac e d).cfgMtu = s.cfgMtu := by cases e <;> rfl
@[simp] theorem State.setDmac_packId : (s.setDmac e d).packId = s.packId := by cases e <;> rfl
@[simp] theorem State.setDmac_rx : (s.setDmac e d).rx = s.rx := by cases e <;> rfl
@[simp] theorem State.setDmac_worker : (s.setDmac e d).worker = s.worker := by cases e <;> rfl
@[simp] theorem State.setDmac_timeMs : (s.setDmac e d).timeMs = s.timeMs := by cases e <;> rfl
@[simp] theorem State.setDmac_log : (s.setDmac e d).log = s.log := by cases e <;> rfl
@[simp] theorem State.setDmac_faultDmaWild : (s.setDmac e d).faultDmaWild = s.faultDmaWild := by cases e <;> rfl
@[simp] theorem State.setDmac_faultBufRace : (s.setDmac e d).faultBufRace = s.faultBufRace := by cases e <;> rfl
@[simp] theorem State.setDmac_cfg : (s.setDmac e d).cfg = s.cfg := by cases e <;> rfl
@[simp] theorem State.setDmac_script : (s.setDmac e d).script = s.script := by cases e <;> rfl
@[simp] theorem State.setDmac_pick : (s.setDmac e d).pick = s.pick := by cases e <;> rfl
@[simp] theorem State.setDmac_draws : (s.setDmac e d).draws = s.draws := by cases e <;> rfl
@[simp] theorem State.setDmac_epoch : (s.setDmac e d).epoch = s.epoch := by cases e <;> rfl
@[simp] theorem State.setDmac_hostGot : (s.setDmac e d).hostGot = s.hostGot := by cases e <;> rfl

/-! ## `setLine` -/

@[simp] theorem State.setLine_chTx : (s.setLine l y).chTx = s.chTx := rfl
@[simp] theorem State.setLine_chRx : (s.setLine l y).chRx = s.chRx := rfl
@[simp] theorem State.setLine_chBus : (s.setLine l y).chBus = s.chBus := rfl
@[simp] theorem State.setLine_issueStatus : (s.setLine l y).issueStatus = s.issueStatus := rfl
@[simp] theorem State.setLine_openTx : (s.setLine l y).openTx = s.openTx := rfl
@[simp] theorem State.setLine_openRx : (s.setLine l y).openRx = s.openRx := rfl
@[simp] theorem State.setLine_bufTx : (s.setLine l y).bufTx = s.bufTx := rfl
@[simp] theorem State.setLine_bufRx : (s.setLine l y).bufRx = s.bufRx := rfl
@[simp] theorem State.setLine_hostMem : (s.setLine l y).hostMem = s.hostMem := rfl
@[simp] theorem State.setLine_dtx : (s.setLine l y).dtx = s.dtx := rfl
@[simp] theorem State.setLine_drx : (s.setLine l y).drx = s.drx := rfl
@[simp] theorem State.setLine_mtx : (s.setLine l y).mtx = s.mtx := rfl
@[simp] theorem State.setLine_mrx : (s.setLine l y).mrx = s.mrx := rfl
@[simp] theorem State.setLine_txInited : (s.setLine l y).txInited = s.txInited := rfl
@[simp] theorem State.setLine_cfgMtu : (s.setLine l y).cfgMtu = s.cfgMtu := rfl
@[simp] theorem State.setLine_packId : (s.setLine l y).packId = s.packId := rfl
@[simp] theorem State.setLine_rx : (s.setLine l y).rx = s.rx := rfl
@[simp] theorem State.setLine_worker : (s.setLine l y).worker = s.worker := rfl
@[simp] theorem State.setLine_timeMs : (s.setLine l y).timeMs = s.timeMs := rfl
@[simp] theorem State.setLine_log : (s.setLine l y).log = s.log := rfl
@[simp] theorem State.setLine_faultDmaWild : (s.setLine l y).faultDmaWild = s.faultDmaWild := rfl
@[simp] theorem State.setLine_faultBufRace : (s.setLine l y).faultBufRace = s.faultBufRace := rfl
@[simp] theorem State.setLine_cfg : (s.setLine l y).cfg = s.cfg := rfl
@[simp] theorem State.setLine_script : (s.setLine l y).script = s.script := rfl
@[simp] theorem State.setLine_pick : (s.setLine l y).pick = s.pick := rfl
@[simp] theorem State.setLine_draws : (s.setLine l y).draws = s.draws := rfl
@[simp] theorem State.setLine_epoch : (s.setLine l y).epoch = s.epoch := rfl
@[simp] theorem State.setLine_hostGot : (s.setLine l y).hostGot = s.hostGot := rfl

/-! ## `setOpen` -/

@[simp] theorem State.setOpen_chTx : (s.setOpen e b).chTx = s.chTx := by cases e <;> rfl
@[simp] theorem State.setOpen_chRx : (s.setOpen e b).chRx = s.chRx := by cases e <;> rfl
@[simp] theorem State.setOpen_chBus : (s.setOpen e b).chBus = s.chBus := by cases e <;> rfl
@[simp] theorem State.setOpen_issueStatus : (s.setOpen e b).issueStatus = s.issueStatus := by cases e <;> rfl
@[simp] theorem State.setOpen_bufTx : (s.setOpen e b).bufTx = s.bufTx := by cases e <;> rfl
@[simp] theorem State.setOpen_bufRx : (s.setOpen e b).bufRx = s.bufRx := by cases e <;> rfl
@[simp] theorem State.setOpen_hostMem : (s.setOpen e b).hostMem = s.hostMem := by cases e <;> rfl
@[simp] theorem State.setOpen_dtx : (s.setOpen e b).dtx = s.dtx := by cases e <;> rfl
@[simp] theorem State.setOpen_drx : (s.setOpen e b).drx = s.drx := by cases e <;> rfl
@[simp] theorem State.setOpen_mtx : (s.setOpen e b).mtx = s.mtx := by cases e <;> rfl
@[simp] theorem State.setOpen_mrx : (s.setOpen e b).mrx = s.mrx := by cases e <;> rfl
@[simp] theorem State.setOpen_lines : (s.setOpen e b).lines = s.lines := by cases e <;> rfl
@[simp] theorem State.setOpen_txInited : (s.setOpen e b).txInited = s.txInited := by cases e <;> rfl
@[simp] theorem State.setOpen_cfgMtu : (s.setOpen e b).cfgMtu = s.cfgMtu := by cases e <;> rfl
@[simp] theorem State.setOpen_packId : (s.setOpen e b).packId = s.packId := by cases e <;> rfl
@[simp] theorem State.setOpen_rx : (s.setOpen e b).rx = s.rx := by cases e <;> rfl
@[simp] theorem State.setOpen_worker : (s.setOpen e b).worker = s.worker := by cases e <;> rfl
@[simp] theorem State.setOpen_timeMs : (s.setOpen e b).timeMs = s.timeMs := by cases e <;> rfl
@[simp] theorem State.setOpen_log : (s.setOpen e b).log = s.log := by cases e <;> rfl
@[simp] theorem State.setOpen_faultDmaWild : (s.setOpen e b).faultDmaWild = s.faultDmaWild := by cases e <;> rfl
@[simp] theorem State.setOpen_faultBufRace : (s.setOpen e b).faultBufRace = s.faultBufRace := by cases e <;> rfl
@[simp] theorem State.setOpen_cfg : (s.setOpen e b).cfg = s.cfg := by cases e <;> rfl
@[simp] theorem State.setOpen_script : (s.setOpen e b).script = s.script := by cases e <;> rfl
@[simp] theorem State.setOpen_pick : (s.setOpen e b).pick = s.pick := by cases e <;> rfl
@[simp] theorem State.setOpen_draws : (s.setOpen e b).draws = s.draws := by cases e <;> rfl
@[simp] theorem State.setOpen_epoch : (s.setOpen e b).epoch = s.epoch := by cases e <;> rfl
@[simp] theorem State.setOpen_hostGot : (s.setOpen e b).hostGot = s.hostGot := by cases e <;> rfl

/-! ## `setSpace` -/

@[simp] theorem State.setSpace_chTx : (s.setSpace z m).chTx = s.chTx := by cases z with | buf e => cases e <;> rfl | hostMem => rfl
@[simp] theorem State.setSpace_chRx : (s.setSpace z m).chRx = s.chRx := by cases z with | buf e => cases e <;> rfl | hostMem => rfl
@[simp] theorem State.setSpace_chBus : (s.setSpace z m).chBus = s.chBus := by cases z with | buf e => cases e <;> rfl | hostMem => rfl
@[simp] theorem State.setSpace_issueStatus : (s.setSpace z m).issueStatus = s.issueStatus := by cases z with | buf e => cases e <;> rfl | hostMem => rfl
@[simp] theorem State.setSpace_openTx : (s.setSpace z m).openTx = s.openTx := by cases z with | buf e => cases e <;> rfl | hostMem => rfl
@[simp] theorem State.setSpace_openRx : (s.setSpace z m).openRx = s.openRx := by cases z with | buf e => cases e <;> rfl | hostMem => rfl
@[simp] theorem State.setSpace_dtx : (s.setSpace z m).dtx = s.dtx := by cases z with | buf e => cases e <;> rfl | hostMem => rfl
@[simp] theorem State.setSpace_drx : (s.setSpace z m).drx = s.drx := by cases z with | buf e => cases e <;> rfl | hostMem => rfl
@[simp] theorem State.setSpace_mtx : (s.setSpace z m).mtx = s.mtx := by cases z with | buf e => cases e <;> rfl | hostMem => rfl
@[simp] theorem State.setSpace_mrx : (s.setSpace z m).mrx = s.mrx := by cases z with | buf e => cases e <;> rfl | hostMem => rfl
@[simp] theorem State.setSpace_lines : (s.setSpace z m).lines = s.lines := by cases z with | buf e => cases e <;> rfl | hostMem => rfl
@[simp] theorem State.setSpace_txInited : (s.setSpace z m).txInited = s.txInited := by cases z with | buf e => cases e <;> rfl | hostMem => rfl
@[simp] theorem State.setSpace_cfgMtu : (s.setSpace z m).cfgMtu = s.cfgMtu := by cases z with | buf e => cases e <;> rfl | hostMem => rfl
@[simp] theorem State.setSpace_packId : (s.setSpace z m).packId = s.packId := by cases z with | buf e => cases e <;> rfl | hostMem => rfl
@[simp] theorem State.setSpace_rx : (s.setSpace z m).rx = s.rx := by cases z with | buf e => cases e <;> rfl | hostMem => rfl
@[simp] theorem State.setSpace_worker : (s.setSpace z m).worker = s.worker := by cases z with | buf e => cases e <;> rfl | hostMem => rfl
@[simp] theorem State.setSpace_timeMs : (s.setSpace z m).timeMs = s.timeMs := by cases z with | buf e => cases e <;> rfl | hostMem => rfl
@[simp] theorem State.setSpace_log : (s.setSpace z m).log = s.log := by cases z with | buf e => cases e <;> rfl | hostMem => rfl
@[simp] theorem State.setSpace_faultDmaWild : (s.setSpace z m).faultDmaWild = s.faultDmaWild := by cases z with | buf e => cases e <;> rfl | hostMem => rfl
@[simp] theorem State.setSpace_faultBufRace : (s.setSpace z m).faultBufRace = s.faultBufRace := by cases z with | buf e => cases e <;> rfl | hostMem => rfl
@[simp] theorem State.setSpace_cfg : (s.setSpace z m).cfg = s.cfg := by cases z with | buf e => cases e <;> rfl | hostMem => rfl
@[simp] theorem State.setSpace_script : (s.setSpace z m).script = s.script := by cases z with | buf e => cases e <;> rfl | hostMem => rfl
@[simp] theorem State.setSpace_pick : (s.setSpace z m).pick = s.pick := by cases z with | buf e => cases e <;> rfl | hostMem => rfl
@[simp] theorem State.setSpace_draws : (s.setSpace z m).draws = s.draws := by cases z with | buf e => cases e <;> rfl | hostMem => rfl
@[simp] theorem State.setSpace_epoch : (s.setSpace z m).epoch = s.epoch := by cases z with | buf e => cases e <;> rfl | hostMem => rfl
@[simp] theorem State.setSpace_hostGot : (s.setSpace z m).hostGot = s.hostGot := by cases z with | buf e => cases e <;> rfl | hostMem => rfl

/-! ## `noteRace` -/

@[simp] theorem State.noteRace_chTx : (s.noteRace b).chTx = s.chTx := rfl
@[simp] theorem State.noteRace_chRx : (s.noteRace b).chRx = s.chRx := rfl
@[simp] theorem State.noteRace_chBus : (s.noteRace b).chBus = s.chBus := rfl
@[simp] theorem State.noteRace_issueStatus : (s.noteRace b).issueStatus = s.issueStatus := rfl
@[simp] theorem State.noteRace_openTx : (s.noteRace b).openTx = s.openTx := rfl
@[simp] theorem State.noteRace_openRx : (s.noteRace b).openRx = s.openRx := rfl
@[simp] theorem State.noteRace_bufTx : (s.noteRace b).bufTx = s.bufTx := rfl
@[simp] theorem State.noteRace_bufRx : (s.noteRace b).bufRx = s.bufRx := rfl
@[simp] theorem State.noteRace_hostMem : (s.noteRace b).hostMem = s.hostMem := rfl
@[simp] theorem State.noteRace_dtx : (s.noteRace b).dtx = s.dtx := rfl
@[simp] theorem State.noteRace_drx : (s.noteRace b).drx = s.drx := rfl
@[simp] theorem State.noteRace_mtx : (s.noteRace b).mtx = s.mtx := rfl
@[simp] theorem State.noteRace_mrx : (s.noteRace b).mrx = s.mrx := rfl
@[simp] theorem State.noteRace_lines : (s.noteRace b).lines = s.lines := rfl
@[simp] theorem State.noteRace_txInited : (s.noteRace b).txInited = s.txInited := rfl
@[simp] theorem State.noteRace_cfgMtu : (s.noteRace b).cfgMtu = s.cfgMtu := rfl
@[simp] theorem State.noteRace_packId : (s.noteRace b).packId = s.packId := rfl
@[simp] theorem State.noteRace_rx : (s.noteRace b).rx = s.rx := rfl
@[simp] theorem State.noteRace_worker : (s.noteRace b).worker = s.worker := rfl
@[simp] theorem State.noteRace_timeMs : (s.noteRace b).timeMs = s.timeMs := rfl
@[simp] theorem State.noteRace_log : (s.noteRace b).log = s.log := rfl
@[simp] theorem State.noteRace_faultDmaWild : (s.noteRace b).faultDmaWild = s.faultDmaWild := rfl
@[simp] theorem State.noteRace_cfg : (s.noteRace b).cfg = s.cfg := rfl
@[simp] theorem State.noteRace_script : (s.noteRace b).script = s.script := rfl
@[simp] theorem State.noteRace_pick : (s.noteRace b).pick = s.pick := rfl
@[simp] theorem State.noteRace_draws : (s.noteRace b).draws = s.draws := rfl
@[simp] theorem State.noteRace_epoch : (s.noteRace b).epoch = s.epoch := rfl
@[simp] theorem State.noteRace_hostGot : (s.noteRace b).hostGot = s.hostGot := rfl

/-! ## `logEvent` -/

@[simp] theorem State.logEvent_chTx : (s.logEvent v).chTx = s.chTx := rfl
@[simp] theorem State.logEvent_chRx : (s.logEvent v).chRx = s.chRx := rfl
@[simp] theorem State.logEvent_chBus : (s.logEvent v).chBus = s.chBus := rfl
@[simp] theorem State.logEvent_issueStatus : (s.logEvent v).issueStatus = s.issueStatus := rfl
@[simp] theorem State.logEvent_openTx : (s.logEvent v).openTx = s.openTx := rfl
@[simp] theorem State.logEvent_openRx : (s.logEvent v).openRx = s.openRx := rfl
@[simp] theorem State.logEvent_bufTx : (s.logEvent v).bufTx = s.bufTx := rfl
@[simp] theorem State.logEvent_bufRx : (s.logEvent v).bufRx = s.bufRx := rfl
@[simp] theorem State.logEvent_hostMem : (s.logEvent v).hostMem = s.hostMem := rfl
@[simp] theorem State.logEvent_dtx : (s.logEvent v).dtx = s.dtx := rfl
@[simp] theorem State.logEvent_drx : (s.logEvent v).drx = s.drx := rfl
@[simp] theorem State.logEvent_mtx : (s.logEvent v).mtx = s.mtx := rfl
@[simp] theorem State.logEvent_mrx : (s.logEvent v).mrx = s.mrx := rfl
@[simp] theorem State.logEvent_lines : (s.logEvent v).lines = s.lines := rfl
@[simp] theorem State.logEvent_txInited : (s.logEvent v).txInited = s.txInited := rfl
@[simp] theorem State.logEvent_cfgMtu : (s.logEvent v).cfgMtu = s.cfgMtu := rfl
@[simp] theorem State.logEvent_packId : (s.logEvent v).packId = s.packId := rfl
@[simp] theorem State.logEvent_rx : (s.logEvent v).rx = s.rx := rfl
@[simp] theorem State.logEvent_worker : (s.logEvent v).worker = s.worker := rfl
@[simp] theorem State.logEvent_timeMs : (s.logEvent v).timeMs = s.timeMs := rfl
@[simp] theorem State.logEvent_faultDmaWild : (s.logEvent v).faultDmaWild = s.faultDmaWild := rfl
@[simp] theorem State.logEvent_faultBufRace : (s.logEvent v).faultBufRace = s.faultBufRace := rfl
@[simp] theorem State.logEvent_cfg : (s.logEvent v).cfg = s.cfg := rfl
@[simp] theorem State.logEvent_script : (s.logEvent v).script = s.script := rfl
@[simp] theorem State.logEvent_pick : (s.logEvent v).pick = s.pick := rfl
@[simp] theorem State.logEvent_draws : (s.logEvent v).draws = s.draws := rfl
@[simp] theorem State.logEvent_epoch : (s.logEvent v).epoch = s.epoch := rfl
@[simp] theorem State.logEvent_hostGot : (s.logEvent v).hostGot = s.hostGot := rfl

/-! ## `latch` -/

@[simp] theorem State.latch_chTx : (s.latch).chTx = s.chTx := rfl
@[simp] theorem State.latch_chRx : (s.latch).chRx = s.chRx := rfl
@[simp] theorem State.latch_chBus : (s.latch).chBus = s.chBus := rfl
@[simp] theorem State.latch_issueStatus : (s.latch).issueStatus = s.issueStatus := rfl
@[simp] theorem State.latch_openTx : (s.latch).openTx = s.openTx := rfl
@[simp] theorem State.latch_openRx : (s.latch).openRx = s.openRx := rfl
@[simp] theorem State.latch_bufTx : (s.latch).bufTx = s.bufTx := rfl
@[simp] theorem State.latch_bufRx : (s.latch).bufRx = s.bufRx := rfl
@[simp] theorem State.latch_hostMem : (s.latch).hostMem = s.hostMem := rfl
@[simp] theorem State.latch_dtx : (s.latch).dtx = s.dtx := rfl
@[simp] theorem State.latch_drx : (s.latch).drx = s.drx := rfl
@[simp] theorem State.latch_mtx : (s.latch).mtx = s.mtx := rfl
@[simp] theorem State.latch_mrx : (s.latch).mrx = s.mrx := rfl
@[simp] theorem State.latch_txInited : (s.latch).txInited = s.txInited := rfl
@[simp] theorem State.latch_cfgMtu : (s.latch).cfgMtu = s.cfgMtu := rfl
@[simp] theorem State.latch_packId : (s.latch).packId = s.packId := rfl
@[simp] theorem State.latch_rx : (s.latch).rx = s.rx := rfl
@[simp] theorem State.latch_worker : (s.latch).worker = s.worker := rfl
@[simp] theorem State.latch_timeMs : (s.latch).timeMs = s.timeMs := rfl
@[simp] theorem State.latch_log : (s.latch).log = s.log := rfl
@[simp] theorem State.latch_faultDmaWild : (s.latch).faultDmaWild = s.faultDmaWild := rfl
@[simp] theorem State.latch_faultBufRace : (s.latch).faultBufRace = s.faultBufRace := rfl
@[simp] theorem State.latch_cfg : (s.latch).cfg = s.cfg := rfl
@[simp] theorem State.latch_script : (s.latch).script = s.script := rfl
@[simp] theorem State.latch_pick : (s.latch).pick = s.pick := rfl
@[simp] theorem State.latch_draws : (s.latch).draws = s.draws := rfl
@[simp] theorem State.latch_epoch : (s.latch).epoch = s.epoch := rfl
@[simp] theorem State.latch_hostGot : (s.latch).hostGot = s.hostGot := rfl

/-! ## `goto` -/

@[simp] theorem State.goto_issueStatus : (s.goto c p).issueStatus = s.issueStatus := by cases c <;> rfl
@[simp] theorem State.goto_openTx : (s.goto c p).openTx = s.openTx := by cases c <;> rfl
@[simp] theorem State.goto_openRx : (s.goto c p).openRx = s.openRx := by cases c <;> rfl
@[simp] theorem State.goto_bufTx : (s.goto c p).bufTx = s.bufTx := by cases c <;> rfl
@[simp] theorem State.goto_bufRx : (s.goto c p).bufRx = s.bufRx := by cases c <;> rfl
@[simp] theorem State.goto_hostMem : (s.goto c p).hostMem = s.hostMem := by cases c <;> rfl
@[simp] theorem State.goto_dtx : (s.goto c p).dtx = s.dtx := by cases c <;> rfl
@[simp] theorem State.goto_drx : (s.goto c p).drx = s.drx := by cases c <;> rfl
@[simp] theorem State.goto_mtx : (s.goto c p).mtx = s.mtx := by cases c <;> rfl
@[simp] theorem State.goto_mrx : (s.goto c p).mrx = s.mrx := by cases c <;> rfl
@[simp] theorem State.goto_lines : (s.goto c p).lines = s.lines := by cases c <;> rfl
@[simp] theorem State.goto_txInited : (s.goto c p).txInited = s.txInited := by cases c <;> rfl
@[simp] theorem State.goto_cfgMtu : (s.goto c p).cfgMtu = s.cfgMtu := by cases c <;> rfl
@[simp] theorem State.goto_packId : (s.goto c p).packId = s.packId := by cases c <;> rfl
@[simp] theorem State.goto_rx : (s.goto c p).rx = s.rx := by cases c <;> rfl
@[simp] theorem State.goto_worker : (s.goto c p).worker = s.worker := by cases c <;> rfl
@[simp] theorem State.goto_timeMs : (s.goto c p).timeMs = s.timeMs := by cases c <;> rfl
@[simp] theorem State.goto_log : (s.goto c p).log = s.log := by cases c <;> rfl
@[simp] theorem State.goto_faultDmaWild : (s.goto c p).faultDmaWild = s.faultDmaWild := by cases c <;> rfl
@[simp] theorem State.goto_faultBufRace : (s.goto c p).faultBufRace = s.faultBufRace := by cases c <;> rfl
@[simp] theorem State.goto_cfg : (s.goto c p).cfg = s.cfg := by cases c <;> rfl
@[simp] theorem State.goto_script : (s.goto c p).script = s.script := by cases c <;> rfl
@[simp] theorem State.goto_pick : (s.goto c p).pick = s.pick := by cases c <;> rfl
@[simp] theorem State.goto_draws : (s.goto c p).draws = s.draws := by cases c <;> rfl
@[simp] theorem State.goto_epoch : (s.goto c p).epoch = s.epoch := by cases c <;> rfl
@[simp] theorem State.goto_hostGot : (s.goto c p).hostGot = s.hostGot := by cases c <;> rfl

/-! ## `gotoWith` -/

@[simp] theorem State.gotoWith_issueStatus : (s.gotoWith c p q).issueStatus = s.issueStatus := by cases c <;> rfl
@[simp] theorem State.gotoWith_openTx : (s.gotoWith c p q).openTx = s.openTx := by cases c <;> rfl
@[simp] theorem State.gotoWith_openRx : (s.gotoWith c p q).openRx = s.openRx := by cases c <;> rfl
@[simp] theorem State.gotoWith_bufTx : (s.gotoWith c p q).bufTx = s.bufTx := by cases c <;> rfl
@[simp] theorem State.gotoWith_bufRx : (s.gotoWith c p q).bufRx = s.bufRx := by cases c <;> rfl
@[simp] theorem State.gotoWith_hostMem : (s.gotoWith c p q).hostMem = s.hostMem := by cases c <;> rfl
@[simp] theorem State.gotoWith_dtx : (s.gotoWith c p q).dtx = s.dtx := by cases c <;> rfl
@[simp] theorem State.gotoWith_drx : (s.gotoWith c p q).drx = s.drx := by cases c <;> rfl
@[simp] theorem State.gotoWith_mtx : (s.gotoWith c p q).mtx = s.mtx := by cases c <;> rfl
@[simp] theorem State.gotoWith_mrx : (s.gotoWith c p q).mrx = s.mrx := by cases c <;> rfl
@[simp] theorem State.gotoWith_lines : (s.gotoWith c p q).lines = s.lines := by cases c <;> rfl
@[simp] theorem State.gotoWith_txInited : (s.gotoWith c p q).txInited = s.txInited := by cases c <;> rfl
@[simp] theorem State.gotoWith_cfgMtu : (s.gotoWith c p q).cfgMtu = s.cfgMtu := by cases c <;> rfl
@[simp] theorem State.gotoWith_packId : (s.gotoWith c p q).packId = s.packId := by cases c <;> rfl
@[simp] theorem State.gotoWith_rx : (s.gotoWith c p q).rx = s.rx := by cases c <;> rfl
@[simp] theorem State.gotoWith_worker : (s.gotoWith c p q).worker = s.worker := by cases c <;> rfl
@[simp] theorem State.gotoWith_timeMs : (s.gotoWith c p q).timeMs = s.timeMs := by cases c <;> rfl
@[simp] theorem State.gotoWith_log : (s.gotoWith c p q).log = s.log := by cases c <;> rfl
@[simp] theorem State.gotoWith_faultDmaWild : (s.gotoWith c p q).faultDmaWild = s.faultDmaWild := by cases c <;> rfl
@[simp] theorem State.gotoWith_faultBufRace : (s.gotoWith c p q).faultBufRace = s.faultBufRace := by cases c <;> rfl
@[simp] theorem State.gotoWith_cfg : (s.gotoWith c p q).cfg = s.cfg := by cases c <;> rfl
@[simp] theorem State.gotoWith_script : (s.gotoWith c p q).script = s.script := by cases c <;> rfl
@[simp] theorem State.gotoWith_pick : (s.gotoWith c p q).pick = s.pick := by cases c <;> rfl
@[simp] theorem State.gotoWith_draws : (s.gotoWith c p q).draws = s.draws := by cases c <;> rfl
@[simp] theorem State.gotoWith_epoch : (s.gotoWith c p q).epoch = s.epoch := by cases c <;> rfl
@[simp] theorem State.gotoWith_hostGot : (s.gotoWith c p q).hostGot = s.hostGot := by cases c <;> rfl

/-! ## `finish` -/

@[simp] theorem State.finish_issueStatus : (s.finish c st vs).issueStatus = s.issueStatus := by cases c <;> rfl
@[simp] theorem State.finish_openTx : (s.finish c st vs).openTx = s.openTx := by cases c <;> rfl
@[simp] theorem State.finish_openRx : (s.finish c st vs).openRx = s.openRx := by cases c <;> rfl
@[simp] theorem State.finish_bufTx : (s.finish c st vs).bufTx = s.bufTx := by cases c <;> rfl
@[simp] theorem State.finish_bufRx : (s.finish c st vs).bufRx = s.bufRx := by cases c <;> rfl
@[simp] theorem State.finish_hostMem : (s.finish c st vs).hostMem = s.hostMem := by cases c <;> rfl
@[simp] theorem State.finish_dtx : (s.finish c st vs).dtx = s.dtx := by cases c <;> rfl
@[simp] theorem State.finish_drx : (s.finish c st vs).drx = s.drx := by cases c <;> rfl
@[simp] theorem State.finish_mtx : (s.finish c st vs).mtx = s.mtx := by cases c <;> rfl
@[simp] theorem State.finish_mrx : (s.finish c st vs).mrx = s.mrx := by cases c <;> rfl
@[simp] theorem State.finish_lines : (s.finish c st vs).lines = s.lines := by cases c <;> rfl
@[simp] theorem State.finish_txInited : (s.finish c st vs).txInited = s.txInited := by cases c <;> rfl
@[simp] theorem State.finish_cfgMtu : (s.finish c st vs).cfgMtu = s.cfgMtu := by cases c <;> rfl
@[simp] theorem State.finish_packId : (s.finish c st vs).packId = s.packId := by cases c <;> rfl
@[simp] theorem State.finish_rx : (s.finish c st vs).rx = s.rx := by cases c <;> rfl
@[simp] theorem State.finish_worker : (s.finish c st vs).worker = s.worker := by cases c <;> rfl
@[simp] theorem State.finish_timeMs : (s.finish c st vs).timeMs = s.timeMs := by cases c <;> rfl
@[simp] theorem State.finish_log : (s.finish c st vs).log = s.log := by cases c <;> rfl
@[simp] theorem State.finish_faultDmaWild : (s.finish c st vs).faultDmaWild = s.faultDmaWild := by cases c <;> rfl
@[simp] theorem State.finish_faultBufRace : (s.finish c st vs).faultBufRace = s.faultBufRace := by cases c <;> rfl
@[simp] theorem State.finish_cfg : (s.finish c st vs).cfg = s.cfg := by cases c <;> rfl
@[simp] theorem State.finish_script : (s.finish c st vs).script = s.script := by cases c <;> rfl
@[simp] theorem State.finish_pick : (s.finish c st vs).pick = s.pick := by cases c <;> rfl
@[simp] theorem State.finish_draws : (s.finish c st vs).draws = s.draws := by cases c <;> rfl
@[simp] theorem State.finish_epoch : (s.finish c st vs).epoch = s.epoch := by cases c <;> rfl
@[simp] theorem State.finish_hostGot : (s.finish c st vs).hostGot = s.hostGot := by cases c <;> rfl

/-! ## `bufWrite` -/

@[simp] theorem State.bufWrite_chTx : (s.bufWrite e n bs).chTx = s.chTx := by cases e <;> rfl
@[simp] theorem State.bufWrite_chRx : (s.bufWrite e n bs).chRx = s.chRx := by cases e <;> rfl
@[simp] theorem State.bufWrite_chBus : (s.bufWrite e n bs).chBus = s.chBus := by cases e <;> rfl
@[simp] theorem State.bufWrite_issueStatus : (s.bufWrite e n bs).issueStatus = s.issueStatus := by cases e <;> rfl
@[simp] theorem State.bufWrite_openTx : (s.bufWrite e n bs).openTx = s.openTx := by cases e <;> rfl
@[simp] theorem State.bufWrite_openRx : (s.bufWrite e n bs).openRx = s.openRx := by cases e <;> rfl
@[simp] theorem State.bufWrite_dtx : (s.bufWrite e n bs).dtx = s.dtx := by cases e <;> rfl
@[simp] theorem State.bufWrite_drx : (s.bufWrite e n bs).drx = s.drx := by cases e <;> rfl
@[simp] theorem State.bufWrite_mtx : (s.bufWrite e n bs).mtx = s.mtx := by cases e <;> rfl
@[simp] theorem State.bufWrite_mrx : (s.bufWrite e n bs).mrx = s.mrx := by cases e <;> rfl
@[simp] theorem State.bufWrite_lines : (s.bufWrite e n bs).lines = s.lines := by cases e <;> rfl
@[simp] theorem State.bufWrite_txInited : (s.bufWrite e n bs).txInited = s.txInited := by cases e <;> rfl
@[simp] theorem State.bufWrite_cfgMtu : (s.bufWrite e n bs).cfgMtu = s.cfgMtu := by cases e <;> rfl
@[simp] theorem State.bufWrite_packId : (s.bufWrite e n bs).packId = s.packId := by cases e <;> rfl
@[simp] theorem State.bufWrite_rx : (s.bufWrite e n bs).rx = s.rx := by cases e <;> rfl
@[simp] theorem State.bufWrite_worker : (s.bufWrite e n bs).worker = s.worker := by cases e <;> rfl
@[simp] theorem State.bufWrite_timeMs : (s.bufWrite e n bs).timeMs = s.timeMs := by cases e <;> rfl
@[simp] theorem State.bufWrite_log : (s.bufWrite e n bs).log = s.log := by cases e <;> rfl
@[simp] theorem State.bufWrite_faultDmaWild : (s.bufWrite e n bs).faultDmaWild = s.faultDmaWild := by cases e <;> rfl
@[simp] theorem State.bufWrite_cfg : (s.bufWrite e n bs).cfg = s.cfg := by cases e <;> rfl
@[simp] theorem State.bufWrite_script : (s.bufWrite e n bs).script = s.script := by cases e <;> rfl
@[simp] theorem State.bufWrite_pick : (s.bufWrite e n bs).pick = s.pick := by cases e <;> rfl
@[simp] theorem State.bufWrite_draws : (s.bufWrite e n bs).draws = s.draws := by cases e <;> rfl
@[simp] theorem State.bufWrite_epoch : (s.bufWrite e n bs).epoch = s.epoch := by cases e <;> rfl
@[simp] theorem State.bufWrite_hostGot : (s.bufWrite e n bs).hostGot = s.hostGot := by cases e <;> rfl

/-! ## `regWrite` -/

@[simp] theorem State.regWrite_chTx : (s.regWrite r w).chTx = s.chTx := by cases r with | dmac e _ => cases e <;> rfl | mtx _ => rfl | mrx _ => rfl
@[simp] theorem State.regWrite_chRx : (s.regWrite r w).chRx = s.chRx := by cases r with | dmac e _ => cases e <;> rfl | mtx _ => rfl | mrx _ => rfl
@[simp] theorem State.regWrite_chBus : (s.regWrite r w).chBus = s.chBus := by cases r with | dmac e _ => cases e <;> rfl | mtx _ => rfl | mrx _ => rfl
@[simp] theorem State.regWrite_issueStatus : (s.regWrite r w).issueStatus = s.issueStatus := by cases r with | dmac e _ => cases e <;> rfl | mtx _ => rfl | mrx _ => rfl
@[simp] theorem State.regWrite_openTx : (s.regWrite r w).openTx = s.openTx := by cases r with | dmac e _ => cases e <;> rfl | mtx _ => rfl | mrx _ => rfl
@[simp] theorem State.regWrite_openRx : (s.regWrite r w).openRx = s.openRx := by cases r with | dmac e _ => cases e <;> rfl | mtx _ => rfl | mrx _ => rfl
@[simp] theorem State.regWrite_bufTx : (s.regWrite r w).bufTx = s.bufTx := by cases r with | dmac e _ => cases e <;> rfl | mtx _ => rfl | mrx _ => rfl
@[simp] theorem State.regWrite_bufRx : (s.regWrite r w).bufRx = s.bufRx := by cases r with | dmac e _ => cases e <;> rfl | mtx _ => rfl | mrx _ => rfl
@[simp] theorem State.regWrite_hostMem : (s.regWrite r w).hostMem = s.hostMem := by cases r with | dmac e _ => cases e <;> rfl | mtx _ => rfl | mrx _ => rfl
@[simp] theorem State.regWrite_txInited : (s.regWrite r w).txInited = s.txInited := by cases r with | dmac e _ => cases e <;> rfl | mtx _ => rfl | mrx _ => rfl
@[simp] theorem State.regWrite_cfgMtu : (s.regWrite r w).cfgMtu = s.cfgMtu := by cases r with | dmac e _ => cases e <;> rfl | mtx _ => rfl | mrx _ => rfl
@[simp] theorem State.regWrite_packId : (s.regWrite r w).packId = s.packId := by cases r with | dmac e _ => cases e <;> rfl | mtx _ => rfl | mrx _ => rfl
@[simp] theorem State.regWrite_rx : (s.regWrite r w).rx = s.rx := by cases r with | dmac e _ => cases e <;> rfl | mtx _ => rfl | mrx _ => rfl
@[simp] theorem State.regWrite_worker : (s.regWrite r w).worker = s.worker := by cases r with | dmac e _ => cases e <;> rfl | mtx _ => rfl | mrx _ => rfl
@[simp] theorem State.regWrite_timeMs : (s.regWrite r w).timeMs = s.timeMs := by cases r with | dmac e _ => cases e <;> rfl | mtx _ => rfl | mrx _ => rfl
@[simp] theorem State.regWrite_log : (s.regWrite r w).log = s.log := by cases r with | dmac e _ => cases e <;> rfl | mtx _ => rfl | mrx _ => rfl
@[simp] theorem State.regWrite_faultDmaWild : (s.regWrite r w).faultDmaWild = s.faultDmaWild := by cases r with | dmac e _ => cases e <;> rfl | mtx _ => rfl | mrx _ => rfl
@[simp] theorem State.regWrite_faultBufRace : (s.regWrite r w).faultBufRace = s.faultBufRace := by cases r with | dmac e _ => cases e <;> rfl | mtx _ => rfl | mrx _ => rfl
@[simp] theorem State.regWrite_cfg : (s.regWrite r w).cfg = s.cfg := by cases r with | dmac e _ => cases e <;> rfl | mtx _ => rfl | mrx _ => rfl
@[simp] theorem State.regWrite_script : (s.regWrite r w).script = s.script := by cases r with | dmac e _ => cases e <;> rfl | mtx _ => rfl | mrx _ => rfl
@[simp] theorem State.regWrite_pick : (s.regWrite r w).pick = s.pick := by cases r with | dmac e _ => cases e <;> rfl | mtx _ => rfl | mrx _ => rfl
@[simp] theorem State.regWrite_draws : (s.regWrite r w).draws = s.draws := by cases r with | dmac e _ => cases e <;> rfl | mtx _ => rfl | mrx _ => rfl
@[simp] theorem State.regWrite_epoch : (s.regWrite r w).epoch = s.epoch := by cases r with | dmac e _ => cases e <;> rfl | mtx _ => rfl | mrx _ => rfl
@[simp] theorem State.regWrite_hostGot : (s.regWrite r w).hostGot = s.hostGot := by cases r with | dmac e _ => cases e <;> rfl | mtx _ => rfl | mrx _ => rfl

/-! ## Named parts after an update of them -/

@[simp] theorem State.chan_tx : s.chan .tx = s.chTx := rfl
@[simp] theorem State.chan_rx : s.chan .rx = s.chRx := rfl
@[simp] theorem State.chan_bus : s.chan .bus = s.chBus := rfl
@[simp] theorem State.setChan_eq_tx : s.setChan .tx x = { s with chTx := x } := rfl
@[simp] theorem State.setChan_eq_rx : s.setChan .rx x = { s with chRx := x } := rfl
@[simp] theorem State.setChan_eq_bus : s.setChan .bus x = { s with chBus := x } := rfl
@[simp] theorem State.dmac_tx : s.dmac .tx = s.dtx := rfl
@[simp] theorem State.dmac_rx : s.dmac .rx = s.drx := rfl
@[simp] theorem State.setDmac_eq_tx : s.setDmac .tx d = { s with dtx := d } := rfl
@[simp] theorem State.setDmac_eq_rx : s.setDmac .rx d = { s with drx := d } := rfl
@[simp] theorem State.isOpen_tx : s.isOpen .tx = s.openTx := rfl
@[simp] theorem State.isOpen_rx : s.isOpen .rx = s.openRx := rfl
@[simp] theorem State.setOpen_eq_tx : s.setOpen .tx b = { s with openTx := b } := rfl
@[simp] theorem State.setOpen_eq_rx : s.setOpen .rx b = { s with openRx := b } := rfl
@[simp] theorem State.space_tx : s.space (.buf .tx) = s.bufTx := rfl
@[simp] theorem State.space_rx : s.space (.buf .rx) = s.bufRx := rfl
@[simp] theorem State.space_host : s.space .hostMem = s.hostMem := rfl

theorem State.chan_setChan_same : (s.setChan c x).chan c = x := by cases c <;> rfl
theorem State.chan_setChan_other (h : c' ≠ c) : (s.setChan c x).chan c' = s.chan c' := by
  cases c <;> cases c' <;> first | rfl | exact absurd rfl h
theorem State.dmac_setDmac_same : (s.setDmac e d).dmac e = d := by cases e <;> rfl
theorem State.dmac_setDmac_other (h : e' ≠ e) : (s.setDmac e d).dmac e' = s.dmac e' := by
  cases e <;> cases e' <;> first | rfl | exact absurd rfl h
theorem Lines.get_set_same (ls : Lines) : (ls.set l y).get l = y := by cases l <;> rfl
theorem Lines.get_set_other (ls : Lines) (h : l' ≠ l) : (ls.set l y).get l' = ls.get l' := by
  cases l <;> cases l' <;> first | rfl | exact absurd rfl h
theorem State.line_setLine_same : (s.setLine l y).line l = y := by cases l <;> rfl
theorem State.line_setLine_other (h : l' ≠ l) : (s.setLine l y).line l' = s.line l' := by
  cases l <;> cases l' <;> first | rfl | exact absurd rfl h
theorem State.isOpen_setOpen_same : (s.setOpen e b).isOpen e = b := by cases e <;> rfl
theorem State.isOpen_setOpen_other (h : e' ≠ e) : (s.setOpen e b).isOpen e' = s.isOpen e' := by
  cases e <;> cases e' <;> first | rfl | exact absurd rfl h
theorem State.space_setSpace_same : (s.setSpace z m).space z = m := by
  cases z with | buf e => cases e <;> rfl | hostMem => rfl
theorem State.space_setSpace_other (h : z' ≠ z) : (s.setSpace z m).space z' = s.space z' := by
  cases z with
  | buf e => cases e <;> cases z' with
    | buf e' => cases e' <;> first | rfl | exact absurd rfl h
    | hostMem => rfl
  | hostMem => cases z' with
    | buf e' => cases e' <;> rfl
    | hostMem => exact absurd rfl h



/-! ### `setChan` on each channel -/

@[simp] theorem State.setChan_tx_chTx : (s.setChan .tx x).chTx = x := rfl
@[simp] theorem State.setChan_tx_chRx : (s.setChan .tx x).chRx = s.chRx := rfl
@[simp] theorem State.setChan_tx_chBus : (s.setChan .tx x).chBus = s.chBus := rfl
@[simp] theorem State.setChan_rx_chTx : (s.setChan .rx x).chTx = s.chTx := rfl
@[simp] theorem State.setChan_rx_chRx : (s.setChan .rx x).chRx = x := rfl
@[simp] theorem State.setChan_rx_chBus : (s.setChan .rx x).chBus = s.chBus := rfl
@[simp] theorem State.setChan_bus_chTx : (s.setChan .bus x).chTx = s.chTx := rfl
@[simp] theorem State.setChan_bus_chRx : (s.setChan .bus x).chRx = s.chRx := rfl
@[simp] theorem State.setChan_bus_chBus : (s.setChan .bus x).chBus = x := rfl

/-! ### `goto` on each channel -/

@[simp] theorem State.goto_tx_chTx : (s.goto .tx p).chTx = { s.chTx with pc := p } := rfl
@[simp] theorem State.goto_tx_chRx : (s.goto .tx p).chRx = s.chRx := rfl
@[simp] theorem State.goto_tx_chBus : (s.goto .tx p).chBus = s.chBus := rfl
@[simp] theorem State.goto_rx_chTx : (s.goto .rx p).chTx = s.chTx := rfl
@[simp] theorem State.goto_rx_chRx : (s.goto .rx p).chRx = { s.chRx with pc := p } := rfl
@[simp] theorem State.goto_rx_chBus : (s.goto .rx p).chBus = s.chBus := rfl
@[simp] theorem State.goto_bus_chTx : (s.goto .bus p).chTx = s.chTx := rfl
@[simp] theorem State.goto_bus_chRx : (s.goto .bus p).chRx = s.chRx := rfl
@[simp] theorem State.goto_bus_chBus : (s.goto .bus p).chBus = { s.chBus with pc := p } := rfl

/-! ### `gotoWith` on each channel -/

@[simp] theorem State.gotoWith_tx_chTx : (s.gotoWith .tx p q).chTx = { s.chTx with pc := p, loc := q } := rfl
@[simp] theorem State.gotoWith_tx_chRx : (s.gotoWith .tx p q).chRx = s.chRx := rfl
@[simp] theorem State.gotoWith_tx_chBus : (s.gotoWith .tx p q).chBus = s.chBus := rfl
@[simp] theorem State.gotoWith_rx_chTx : (s.gotoWith .rx p q).chTx = s.chTx := rfl
@[simp] theorem State.gotoWith_rx_chRx : (s.gotoWith .rx p q).chRx = { s.chRx with pc := p, loc := q } := rfl
@[simp] theorem State.gotoWith_rx_chBus : (s.gotoWith .rx p q).chBus = s.chBus := rfl
@[simp] theorem State.gotoWith_bus_chTx : (s.gotoWith .bus p q).chTx = s.chTx := rfl
@[simp] theorem State.gotoWith_bus_chRx : (s.gotoWith .bus p q).chRx = s.chRx := rfl
@[simp] theorem State.gotoWith_bus_chBus : (s.gotoWith .bus p q).chBus = { s.chBus with pc := p, loc := q } := rfl

/-! ### `finish` on each channel -/

@[simp] theorem State.finish_tx_chTx :
    (s.finish .tx st vs).chTx = { s.chTx with busy := false, status := st.code, res := s.chTx.res.put vs, pc := .idle } := rfl
@[simp] theorem State.finish_tx_chRx : (s.finish .tx st vs).chRx = s.chRx := rfl
@[simp] theorem State.finish_tx_chBus : (s.finish .tx st vs).chBus = s.chBus := rfl
@[simp] theorem State.finish_rx_chTx : (s.finish .rx st vs).chTx = s.chTx := rfl
@[simp] theorem State.finish_rx_chRx :
    (s.finish .rx st vs).chRx = { s.chRx with busy := false, status := st.code, res := s.chRx.res.put vs, pc := .idle } := rfl
@[simp] theorem State.finish_rx_chBus : (s.finish .rx st vs).chBus = s.chBus := rfl
@[simp] theorem State.finish_bus_chTx : (s.finish .bus st vs).chTx = s.chTx := rfl
@[simp] theorem State.finish_bus_chRx : (s.finish .bus st vs).chRx = s.chRx := rfl
@[simp] theorem State.finish_bus_chBus :
    (s.finish .bus st vs).chBus = { s.chBus with busy := false, status := st.code, res := s.chBus.res.put vs, pc := .idle } := rfl

/-! ### `raise` on each channel -/

@[simp] theorem State.raise_tx_chTx :
    (s.raise .tx st).chTx = { s.chTx with busy := false, status := st.code, res := s.chTx.res.put [], pc := .idle } := rfl
@[simp] theorem State.raise_tx_chRx : (s.raise .tx st).chRx = s.chRx := rfl
@[simp] theorem State.raise_tx_chBus : (s.raise .tx st).chBus = s.chBus := rfl
@[simp] theorem State.raise_rx_chTx : (s.raise .rx st).chTx = s.chTx := rfl
@[simp] theorem State.raise_rx_chRx :
    (s.raise .rx st).chRx = { s.chRx with busy := false, status := st.code, res := s.chRx.res.put [], pc := .idle } := rfl
@[simp] theorem State.raise_rx_chBus : (s.raise .rx st).chBus = s.chBus := rfl
@[simp] theorem State.raise_bus_chTx : (s.raise .bus st).chTx = s.chTx := rfl
@[simp] theorem State.raise_bus_chRx : (s.raise .bus st).chRx = s.chRx := rfl
@[simp] theorem State.raise_bus_chBus :
    (s.raise .bus st).chBus = { s.chBus with busy := false, status := st.code, res := s.chBus.res.put [], pc := .idle } := rfl

/-! ### Register writes on the parts they write -/

@[simp] theorem State.regWrite_dmac_dtx (k : DReg) :
    (s.regWrite (.dmac .tx k) w).dtx = s.dtx.write s.cfg .tx k w := rfl
@[simp] theorem State.regWrite_dmac_drx (k : DReg) :
    (s.regWrite (.dmac .rx k) w).drx = s.drx.write s.cfg .rx k w := rfl
@[simp] theorem State.regWrite_dmac_tx_drx (k : DReg) : (s.regWrite (.dmac .tx k) w).drx = s.drx := rfl
@[simp] theorem State.regWrite_dmac_rx_dtx (k : DReg) : (s.regWrite (.dmac .rx k) w).dtx = s.dtx := rfl
@[simp] theorem State.regWrite_dmac_mtx (k : DReg) : (s.regWrite (.dmac e k) w).mtx = s.mtx := by cases e <;> rfl
@[simp] theorem State.regWrite_dmac_mrx (k : DReg) : (s.regWrite (.dmac e k) w).mrx = s.mrx := by cases e <;> rfl
@[simp] theorem State.regWrite_mtx_mtx (k : TReg) : (s.regWrite (.mtx k) w).mtx = s.mtx.write k w := rfl
@[simp] theorem State.regWrite_mtx_dtx (k : TReg) : (s.regWrite (.mtx k) w).dtx = s.dtx := rfl
@[simp] theorem State.regWrite_mtx_drx (k : TReg) : (s.regWrite (.mtx k) w).drx = s.drx := rfl
@[simp] theorem State.regWrite_mtx_mrx (k : TReg) : (s.regWrite (.mtx k) w).mrx = s.mrx := rfl
@[simp] theorem State.regWrite_mrx_mrx (k : RReg) : (s.regWrite (.mrx k) w).mrx = s.mrx.write k w := rfl
@[simp] theorem State.regWrite_mrx_dtx (k : RReg) : (s.regWrite (.mrx k) w).dtx = s.dtx := rfl
@[simp] theorem State.regWrite_mrx_drx (k : RReg) : (s.regWrite (.mrx k) w).drx = s.drx := rfl
@[simp] theorem State.regWrite_mrx_mtx (k : RReg) : (s.regWrite (.mrx k) w).mtx = s.mtx := rfl

/-! ### Reads and levels after an update that they do not depend on -/

@[simp] theorem State.regRead_setChan : (s.setChan c x).regRead r = s.regRead r := by
  cases c <;> rcases r with ⟨e, k⟩ | k | k <;> rfl
@[simp] theorem State.regRead_goto : (s.goto c p).regRead r = s.regRead r := State.regRead_setChan ..
@[simp] theorem State.regRead_gotoWith : (s.gotoWith c p q).regRead r = s.regRead r := State.regRead_setChan ..
@[simp] theorem State.regRead_finish : (s.finish c st vs).regRead r = s.regRead r := State.regRead_setChan ..
@[simp] theorem State.regRead_latch : s.latch.regRead r = s.regRead r := by
  rcases r with ⟨e, k⟩ | k | k <;> rfl
@[simp] theorem State.regRead_setLine : (s.setLine l y).regRead r = s.regRead r := by
  rcases r with ⟨e, k⟩ | k | k <;> rfl
@[simp] theorem State.level_setChan : (s.setChan c x).level l = s.level l := by cases c <;> cases l <;> rfl
@[simp] theorem State.level_goto : (s.goto c p).level l = s.level l := State.level_setChan ..
@[simp] theorem State.level_gotoWith : (s.gotoWith c p q).level l = s.level l := State.level_setChan ..
@[simp] theorem State.level_finish : (s.finish c st vs).level l = s.level l := State.level_setChan ..
@[simp] theorem State.level_setLine : (s.setLine l y).level l' = s.level l' := by cases l' <;> rfl

/-! ## The completion of a command -/

/-- What `finish` leaves of its channel, the result registers by `Results.put`. -/
theorem State.chan_finish : (s.finish c st vs).chan c =
    { s.chan c with busy := false, status := st.code, res := (s.chan c).res.put vs, pc := .idle } := by
  cases c <;> rfl
theorem State.chan_finish_other (h : c' ≠ c) : (s.finish c st vs).chan c' = s.chan c' := by
  cases c <;> cases c' <;> first | rfl | exact absurd rfl h
theorem State.chan_goto : (s.goto c p).chan c = { s.chan c with pc := p } := by cases c <;> rfl
theorem State.chan_gotoWith : (s.gotoWith c p q).chan c = { s.chan c with pc := p, loc := q } := by cases c <;> rfl

/-! ## Levels and the latch rule -/

theorem Line.latch_masked (h : y.masked = true) : y.latch b = y := by simp [Line.latch, h]
theorem Line.latch_idem : (y.latch b).latch b = y.latch b := by
  unfold Line.latch
  split <;> simp_all

@[simp] theorem State.level_latch : s.latch.level l = s.level l := by cases l <;> rfl

/-- Every line after the latch rule. -/
theorem State.line_latch : s.latch.line l = (s.line l).latch (s.level l) := by cases l <;> rfl

/-- The latch rule applied twice is the latch rule: a step may apply it early (R403, R406, R408). -/
theorem State.latch_latch : s.latch.latch = s.latch := by
  have h : s.latch.latch = { s.latch with lines :=
      { mtx := s.latch.lines.mtx.latch (s.latch.level .mtx), mrx := s.latch.lines.mrx.latch (s.latch.level .mrx),
        dtx := s.latch.lines.dtx.latch (s.latch.level .dtx), drx := s.latch.lines.drx.latch (s.latch.level .drx) } } := rfl
  rw [h]
  simp only [State.level_latch]
  simp only [State.latch, Line.latch_idem]

end Sys2Proof.Machine
end

