-- ==== Sys2Proof/Laws/Memory.lean ====
section
/-! SUPPORT. The byte spaces and sparse tables: the canonical form is kept by every write, a read after a write gives the
written value, and a write leaves every other address alone (R11, R201, R206). -/

namespace Sys2Proof.Machine

variable {α : Type}

/-! ## Runs of values -/

theorem Sparse.mem_run {vs : List α} {a : Nat} {c : Nat × α} (h : c ∈ Sparse.run a vs) :
    a ≤ c.1 ∧ c.1 < a + vs.length := by
  induction vs generalizing a with
  | nil => simp [Sparse.run] at h
  | cons v vs ih =>
    simp only [Sparse.run, List.mem_cons] at h
    rcases h with rfl | h
    · simp
    · have := ih h
      simp only [List.length_cons]
      omega

theorem Sparse.run_wf (vs : List α) (a : Nat) : Sparse.wf (Sparse.run a vs) := by
  induction vs generalizing a with
  | nil => exact List.Pairwise.nil
  | cons v vs ih =>
    refine List.Pairwise.cons (fun c hc => ?_) (ih (a + 1))
    have := Sparse.mem_run hc
    show a < c.1
    omega

theorem Sparse.find_run (vs : List α) (a x : Nat) :
    ((Sparse.run a vs).find? fun c => c.1 == x).map Prod.snd = if a ≤ x then vs[x - a]? else none := by
  induction vs generalizing a with
  | nil => simp [Sparse.run]
  | cons v vs ih =>
    simp only [Sparse.run, List.find?_cons]
    by_cases hx : a = x
    · subst hx
      simp
    · have hb : (a == x) = false := by simpa using hx
      rw [hb]
      simp only [ih]
      by_cases ha : a ≤ x
      · have h1 : a + 1 ≤ x := by omega
        have h2 : x - a = (x - (a + 1)) + 1 := by omega
        simp [ha, h1, h2]
      · have h1 : ¬ a + 1 ≤ x := by omega
        simp [ha, h1]

/-! ## Writes -/

/-- A write keeps the canonical form. -/
theorem Sparse.write_wf {m : Sparse α} (h : Sparse.wf m) (a : Nat) (vs : List α) : Sparse.wf (Sparse.write m a vs) := by
  unfold Sparse.write
  refine List.pairwise_append.2 ⟨List.pairwise_append.2 ⟨h.filter _, Sparse.run_wf vs a, ?_⟩, h.filter _, ?_⟩
  · intro x hx y hy
    have h1 := (List.mem_filter.1 hx).2
    have h2 := Sparse.mem_run hy
    simp only [decide_eq_true_eq] at h1
    omega
  · intro x hx y hy
    have h2 := (List.mem_filter.1 hy).2
    simp only [decide_eq_true_eq] at h2
    rcases List.mem_append.1 hx with hx | hx
    · have h1 := (List.mem_filter.1 hx).2
      simp only [decide_eq_true_eq] at h1
      omega
    · have h1 := Sparse.mem_run hx
      omega

/-- Where an entry of a written list comes from. -/
theorem Sparse.mem_write {m : Sparse α} {a : Nat} {vs : List α} {c : Nat × α} (h : c ∈ Sparse.write m a vs) :
    c ∈ m ∨ (a ≤ c.1 ∧ c.1 < a + vs.length) := by
  unfold Sparse.write at h
  rcases List.mem_append.1 h with h | h
  · rcases List.mem_append.1 h with h | h
    · exact .inl (List.mem_of_mem_filter h)
    · exact .inr (Sparse.mem_run h)
  · exact .inl (List.mem_of_mem_filter h)

/-- A write below a bound keeps every address below it. -/
theorem Sparse.write_below {m : Sparse α} {a n : Nat} {vs : List α} (h : ∀ c ∈ m, c.1 < n) (hb : a + vs.length ≤ n) :
    ∀ c ∈ Sparse.write m a vs, c.1 < n := by
  intro c hc
  rcases Sparse.mem_write hc with hc | hc
  · exact h c hc
  · omega

theorem Sparse.find_filter_key (m : Sparse α) (p : Nat → Bool) (x : Nat) :
    (m.filter fun c => p c.1).find? (fun c => c.1 == x) = if p x then m.find? (fun c => c.1 == x) else none := by
  induction m with
  | nil => simp
  | cons c m ih =>
    by_cases hc : c.1 = x
    · by_cases hp : p x
      · simp [hc, hp]
      · simp only [List.filter_cons, hc, hp]
        simpa [hp] using ih
    · have hb : (c.1 == x) = false := by simpa using hc
      by_cases hp : p c.1
      · simp only [List.filter_cons, hp, if_true, List.find?_cons, hb, ih]
      · simp only [List.filter_cons, hp, List.find?_cons, hb]
        exact ih

/-- What an address holds after a write: the written value inside the range, what it held outside. -/
theorem Sparse.get_write (m : Sparse α) (a x : Nat) (vs : List α) :
    Sparse.get? (Sparse.write m a vs) x = if a ≤ x ∧ x < a + vs.length then vs[x - a]? else Sparse.get? m x := by
  unfold Sparse.get? Sparse.write
  rw [List.find?_append, List.find?_append, Sparse.find_filter_key m (fun k => decide (k < a)) x,
    Sparse.find_filter_key m (fun k => decide (a + vs.length ≤ k)) x]
  have hr := Sparse.find_run vs a x
  by_cases h1 : x < a
  · have h3 : ¬ (a + vs.length ≤ x) := by omega
    have h4 : ¬ (a ≤ x) := by omega
    rw [if_neg h4] at hr
    have hn : ((Sparse.run a vs).find? fun c => c.1 == x) = none := by simpa using hr
    simp [h1, h3, h4, hn]
  · have h4 : a ≤ x := by omega
    rw [if_pos h4] at hr
    by_cases h5 : x < a + vs.length
    · have h6 : ¬ (a + vs.length ≤ x) := by omega
      have hr' : Option.map Prod.snd (List.find? (fun c => c.1 == x) (Sparse.run a vs)) = some vs[x - a] := by
        rw [hr, List.getElem?_eq_getElem (by omega)]
      simp [h1, h4, h5, h6, hr']
    · have h6 : a + vs.length ≤ x := by omega
      have hv : vs[x - a]? = none := List.getElem?_eq_none (by omega)
      rw [hv] at hr
      have hn : ((Sparse.run a vs).find? fun c => c.1 == x) = none := by simpa using hr
      simp [h1, h5, h6, hn]

theorem Sparse.get_write_inside {m : Sparse α} {a x : Nat} {vs : List α} (h1 : a ≤ x) (h2 : x < a + vs.length) :
    Sparse.get? (Sparse.write m a vs) x = vs[x - a]? := by
  rw [Sparse.get_write, if_pos ⟨h1, h2⟩]

theorem Sparse.get_write_outside {m : Sparse α} {a x : Nat} {vs : List α} (h : x < a ∨ a + vs.length ≤ x) :
    Sparse.get? (Sparse.write m a vs) x = Sparse.get? m x := by
  rw [Sparse.get_write, if_neg (by omega)]

/-! ## Byte spaces -/

variable (s : State) (sp sp' : ByteSpace) (a x : Nat) (bs : List Byte)

/-- One byte after a write to a space, of that space or another. -/
theorem State.byteAt_writeMem_inside (h1 : a ≤ x) (h2 : x < a + bs.length) :
    (s.writeMem sp a bs).byteAt sp x = bs.getD (x - a) 0#8 := by
  have hb : x - a < bs.length := by omega
  unfold State.byteAt State.writeMem
  rw [State.space_setSpace_same, Sparse.get_write_inside h1 h2, List.getElem?_eq_getElem hb]
  simp [List.getD, List.getElem?_eq_getElem hb]

theorem State.byteAt_writeMem_outside (h : x < a ∨ a + bs.length ≤ x) :
    (s.writeMem sp a bs).byteAt sp x = s.byteAt sp x := by
  unfold State.byteAt State.writeMem
  rw [State.space_setSpace_same, Sparse.get_write_outside h, State.setSpace_epoch]

theorem State.byteAt_writeMem_other (h : sp' ≠ sp) : (s.writeMem sp a bs).byteAt sp' x = s.byteAt sp' x := by
  unfold State.byteAt State.writeMem
  rw [State.space_setSpace_other s sp sp' _ h, State.setSpace_epoch]

/-- A byte read depends on the space's list and the reset number only. -/
theorem State.byteAt_congr {s t : State} (h1 : t.space sp = s.space sp) (h2 : t.epoch = s.epoch) :
    t.byteAt sp x = s.byteAt sp x := by
  unfold State.byteAt
  rw [h1, h2]

@[simp] theorem State.length_readMem (n : Nat) : (s.readMem sp a n).length = n := by simp [State.readMem]

theorem State.getElem_readMem (n k : Nat) (h : k < (s.readMem sp a n).length) :
    (s.readMem sp a n)[k] = s.byteAt sp (a + k) := by simp [State.readMem]

/-- Reading back exactly what was written. -/
theorem State.readMem_writeMem_same : (s.writeMem sp a bs).readMem sp a bs.length = bs := by
  apply List.ext_getElem (by simp)
  intro k h1 h2
  rw [State.getElem_readMem, State.byteAt_writeMem_inside s sp a (a + k) bs (by omega) (by omega)]
  simp [List.getD, List.getElem?_eq_getElem h2]

/-- A read depends on the bytes read only. -/
theorem State.readMem_congr {s t : State} {sp : ByteSpace} {a n : Nat}
    (h : ∀ k, k < n → t.byteAt sp (a + k) = s.byteAt sp (a + k)) : t.readMem sp a n = s.readMem sp a n := by
  apply List.ext_getElem (by simp)
  intro k h1 h2
  rw [State.getElem_readMem, State.getElem_readMem]
  exact h k (by simpa using h2)

/-- The lists of a state written to stay canonical. -/
theorem State.space_writeMem_wf (h : ∀ z, Memory.wf (s.space z)) : ∀ z, Memory.wf ((s.writeMem sp a bs).space z) := by
  intro z
  by_cases hz : z = sp
  · subst hz
    unfold State.writeMem
    rw [State.space_setSpace_same]
    exact Sparse.write_wf (h z) a bs
  · unfold State.writeMem
    rw [State.space_setSpace_other s sp z _ hz]
    exact h z

/-- The reset state's byte spaces are canonical: nothing is listed. -/
theorem State.reset_memory_wf : Memory.wf State.reset.bufTx ∧ Memory.wf State.reset.bufRx ∧ Memory.wf State.reset.hostMem :=
  ⟨List.Pairwise.nil, List.Pairwise.nil, List.Pairwise.nil⟩

/-- Every memory operation that writes a buffer goes through `writeMem`. -/
theorem State.bufWrite_eq (e : Engine) :
    s.bufWrite e a bs = (s.noteRace (s.raced e a bs.length)).writeMem (.buf e) a bs := rfl

theorem State.space_bufWrite_wf (e : Engine) (h : ∀ z, Memory.wf (s.space z)) :
    ∀ z, Memory.wf ((s.bufWrite e a bs).space z) :=
  State.space_writeMem_wf (s.noteRace (s.raced e a bs.length)) (.buf e) a bs
    (fun z => match z with
      | .buf .tx => h (.buf .tx)
      | .buf .rx => h (.buf .rx)
      | .hostMem => h .hostMem)

theorem State.scatter_wf (ranges : List (Nat × Nat)) (h : ∀ z, Memory.wf (s.space z)) :
    ∀ z, Memory.wf ((s.scatter ranges bs).space z) := by
  induction ranges generalizing s bs with
  | nil => exact h
  | cons x xs ih => exact ih _ _ (State.space_writeMem_wf s _ _ _ h)

/-- Scattering the rows of a transfer changes the buffer of engine RX only. -/
theorem State.scatter_frame (ranges : List (Nat × Nat)) :
    s.scatter ranges bs = { s with bufRx := (s.scatter ranges bs).bufRx } := by
  induction ranges generalizing s bs with
  | nil => rfl
  | cons x xs ih =>
    simp only [State.scatter]
    rw [ih]
    rfl

end Sys2Proof.Machine
end

