-- ==== Sys2Proof/Laws/Ops.lean ====
section
/-! SUPPORT. What each shared operation can do, said once: answers of a step, register access, interrupt waits, and the
DMA procedures. -/

namespace Sys2Proof.Machine

/-! ## Answers -/

theorem onNext_eq_next {f : State → State} {r : Result} {t : State} (h : onNext f r = .next t) :
    ∃ s, r = .next s ∧ t = f s := by
  cases r with
  | next s => exact ⟨s, rfl, by simpa [onNext] using h.symm⟩
  | fault x => simp [onNext] at h
  | refused x => simp [onNext] at h

theorem onNext_eq_fault {f : State → State} {r : Result} {x : Fault} (h : onNext f r = .fault x) : r = .fault x := by
  cases r with
  | next s => simp [onNext] at h
  | fault y => simpa [onNext] using h
  | refused y => simp [onNext] at h

theorem onNext_eq_refused {f : State → State} {r : Result} {x : Refusal} (h : onNext f r = .refused x) :
    r = .refused x := by
  cases r with
  | next s => simp [onNext] at h
  | fault y => simp [onNext] at h
  | refused y => simpa [onNext] using h

/-- A move that leads on is its body followed by the latch rule. -/
theorem act_eq_next {m : Move} {s t : State} (h : act m s = .next t) :
    ∃ u, moveBody m s = .next u ∧ t = u.latch := onNext_eq_next h

/-- A step that leads on: the configuration is legal, and it is the act of the next move. -/
theorem step_eq_next {s t : State} (h : step s = .next t) :
    s.cfg.wf = true ∧ act s.nextMove.1 s.nextMove.2 = .next t := by
  unfold step machineStep at h
  split at h
  · exact ⟨‹_›, h⟩
  · cases h

/-- Taking the next move touches the script and the draw counter only. -/
theorem State.nextMove_frame (s : State) :
    s.nextMove.2 = { s with script := s.nextMove.2.script, draws := s.nextMove.2.draws } := by
  unfold State.nextMove
  split <;> rfl

/-- A busy channel's step is its command's, when the command is the channel's. -/
theorem channelStep_eq_exec {c : Channel} {s : State} {i : Instr} (hb : (s.chan c).busy = true)
    (hd : decode (s.chan c).cmd = .ok i) (hc : i.channel = c) : channelStep c s = exec i s := by
  unfold channelStep
  simp [hb, hd, hc]

/-- What a channel's step that leads on is. -/
theorem channelStep_eq_next {c : Channel} {s t : State} (h : channelStep c s = .next t) :
    ((s.chan c).busy = false ∧ t = s) ∨
      ((s.chan c).busy = true ∧ ∃ i, decode (s.chan c).cmd = .ok i ∧ i.channel = c ∧ exec i s = .next t) := by
  unfold channelStep at h
  split at h
  · exact .inl ⟨‹_›, by simpa using h.symm⟩
  · rename_i hb
    have hb' : (s.chan c).busy = true := by simpa using hb
    split at h
    · cases h
    · rename_i i hd
      split at h
      · exact .inr ⟨hb', i, hd, ‹_›, h⟩
      · cases h

/-! ## Interrupt lines and register writes -/

theorem linesKeptBut_of_eq {own : List Space} {s t : State} (h : t.lines = s.lines) : linesKeptBut own s t :=
  fun l _ => .inl (by simp [State.line, h])

theorem linesKeptBut_of_latch {own : List Space} {s t : State}
    (h : ∀ l, l ∉ own → t.line l = (s.line l).latch (t.level l)) : linesKeptBut own s t := fun l hl => .inr (h l hl)

/-- A register write touches the lines by the latch rule alone (R403, R408). -/
theorem linesKeptBut_regWrite (own : List Space) (s : State) (r : Reg) (v : U32) :
    linesKeptBut own s (s.regWrite r v) := by
  refine linesKeptBut_of_latch fun l _ => ?_
  rcases r with ⟨e, r⟩ | r | r
  · cases e <;> cases l <;> rfl
  · cases l <;> rfl
  · cases l <;> rfl

theorem linesKeptBut_setLine (sp : Space) (x : Line) (s : State) : linesKeptBut [sp] s (s.setLine sp x) := by
  intro l hl
  cases sp <;> cases l <;> first | exact .inl rfl | simp at hl

theorem linesKeptBut_irqUnmask (sp : Space) (s : State) : linesKeptBut [sp] s (s.irqUnmask sp) := by
  refine linesKeptBut_of_latch fun l hl => ?_
  cases sp <;> cases l <;> first | rfl | simp at hl

/-- A change of one DMA controller, the other direction's address and stride apart, and of its interrupt line; the other
lines change by the latch rule at most. -/
structure touchesDma (e : Engine) (s t : State) : Prop where
  frame : ∃ d ls, t = { s.setDmac e d with lines := ls }
  programmed : t.dmac e = (s.dmac e).programmed e (t.dmac e)
  lines : linesKeptBut [e.space] s t

theorem touchesDma.refl (e : Engine) (s : State) : touchesDma e s s :=
  ⟨⟨s.dmac e, s.lines, by cases e <;> rfl⟩, by cases e <;> rfl, linesKeptBut_of_eq rfl⟩

/-- The register belongs to the direction of the engine, or to both. -/
def DReg.ofEngine : Engine → DReg → Bool
  | .tx, .destAddress | .tx, .destStride | .rx, .srcAddress | .rx, .srcStride => false
  | _, _ => true

theorem Dmac.submit_programmed (d : Dmac) (c : Config) (e : Engine) : d.submit c e = d.programmed e (d.submit c e) := by
  unfold Dmac.submit
  split <;> cases e <;> rfl

theorem Dmac.write_programmed (d : Dmac) (c : Config) (e : Engine) (r : DReg) (v : U32) (h : r.ofEngine e = true) :
    d.write c e r v = d.programmed e (d.write c e r v) := by
  cases r
  case transferSubmit =>
    simp only [Dmac.write]
    split
    · exact d.submit_programmed c e
    · cases e <;> rfl
  all_goals (cases e <;> first | rfl | simp [DReg.ofEngine] at h)

theorem touchesDma_regWrite (e : Engine) (r : DReg) (v : U32) (s : State) (h : r.ofEngine e = true) :
    touchesDma e s (s.regWrite (dReg e r) v) where
  frame := ⟨(s.dmac e).write s.cfg e r v, (s.regWrite (dReg e r) v).lines, by cases e <;> rfl⟩
  programmed := by
    have hw : (s.regWrite (dReg e r) v).dmac e = (s.dmac e).write s.cfg e r v := by cases e <;> rfl
    rw [hw]
    exact Dmac.write_programmed _ _ _ _ _ h
  lines := linesKeptBut_regWrite _ _ _ _

theorem touchesDma_irqUnmask (e : Engine) (s : State) : touchesDma e s (s.irqUnmask e.space) :=
  ⟨⟨s.dmac e, (s.irqUnmask e.space).lines, by cases e <;> rfl⟩, by cases e <;> rfl, linesKeptBut_irqUnmask _ _⟩

theorem touchesDma_setLine (e : Engine) (x : Line) (s : State) : touchesDma e s (s.setLine e.space x) :=
  ⟨⟨s.dmac e, (s.setLine e.space x).lines, by cases e <;> rfl⟩, by cases e <;> rfl, linesKeptBut_setLine _ _ _⟩

/-- An interrupt wait's completion changes the interrupt lines only, and consumes a latch only when it wakes (R407). -/
theorem State.irqWait_eq_some {s t : State} {sp : Space} {t0 T : Nat} {r : IrqResult}
    (h : s.irqWait sp t0 T = some (r, t)) :
    (r = .pending ∧ s.pick = .wake ∧ (s.line sp).latched = true ∧
        t = s.setLine sp { s.line sp with latched := false }) ∨
      (r = .none ∧ s.pick = .expire ∧ s.expired (t0 + T) (s.line sp).latched = true ∧ t = s) ∨
      (r = .error ∧ s.pick = .fail ∧ s.cfg.busMayFail = true ∧ t = s) := by
  unfold State.irqWait at h
  split at h
  · rename_i hp
    split at h
    · simp only [Option.some.injEq, Prod.mk.injEq] at h
      exact .inl ⟨h.1.symm, hp, ‹_›, h.2.symm⟩
    · cases h
  · rename_i hp
    split at h
    · simp only [Option.some.injEq, Prod.mk.injEq] at h
      exact .inr (.inl ⟨h.1.symm, hp, ‹_›, h.2.symm⟩)
    · cases h
  · rename_i hp
    split at h
    · simp only [Option.some.injEq, Prod.mk.injEq] at h
      exact .inr (.inr ⟨h.1.symm, hp, ‹_›, h.2.symm⟩)
    · cases h

theorem touchesDma_irqWait {e : Engine} {s t : State} {t0 T : Nat} {r : IrqResult}
    (h : s.irqWait e.space t0 T = some (r, t)) : touchesDma e s t := by
  rcases State.irqWait_eq_some h with ⟨-, -, -, rfl⟩ | ⟨-, -, -, rfl⟩ | ⟨-, -, -, rfl⟩
  · exact touchesDma_setLine e _ s
  · exact touchesDma.refl e _
  · exact touchesDma.refl e _

/-! ## The DMA procedures (R505, R507, R509, R510) -/

/-- What the answer of a DMA procedure's step says of the state and of the caller's operands. -/
def DmaNext.keeps (e : Engine) (d : DmaLocals) (s : State) : DmaNext → Prop
  | .go _ d' t =>
    touchesDma e s t ∧ d'.off = d.off ∧ d'.size = d.size ∧ d'.cyc = d.cyc ∧ d'.cnf = d.cnf
  | .ret _ _ t => touchesDma e s t
  | .blocked => True

theorem afterPhase_keeps {e : Engine} {d d' : DmaLocals} {s t : State} (h : touchesDma e s t)
    (h1 : d'.off = d.off) (h2 : d'.size = d.size) (h3 : d'.cyc = d.cyc) (h4 : d'.cnf = d.cnf) :
    (afterPhase e d' t).keeps e d s := by
  unfold afterPhase
  split
  · exact ⟨h, h1, h2, h3, h4⟩
  · split
    · exact ⟨h, h1, h2, h3, h4⟩
    · split
      · exact ⟨h, h1, h2, h3, h4⟩
      · exact ⟨h, h1, h2, h3, h4⟩

/-- A step of a DMA procedure changes its controller and its interrupt line only, and keeps its operands. -/
theorem dmaStep_keeps (e : Engine) (l : DmaLabel) (d : DmaLocals) (s : State) : (dmaStep e l d s).keeps e d s := by
  have hw := fun r v h => touchesDma_regWrite e r v s h
  have hr := touchesDma.refl e s
  cases l <;> simp only [dmaStep]
  case d1 =>
    unfold dmaCheck
    split
    · exact hr
    · split
      · exact hr
      · split
        · exact hr
        · exact ⟨hr, rfl, rfl, rfl, rfl⟩
  case d12 =>
    have hs := hw .transferSubmit 1#32 (by cases e <;> rfl)
    split
    · exact ⟨hs, rfl, rfl, rfl, rfl⟩
    · exact ⟨hs, rfl, rfl, rfl, rfl⟩
  case wp1 =>
    split
    · exact afterPhase_keeps hr rfl rfl rfl rfl
    · exact ⟨hr, rfl, rfl, rfl, rfl⟩
  case wp2 => exact ⟨touchesDma_irqUnmask e s, rfl, rfl, rfl, rfl⟩
  case wp3 =>
    unfold dmaIrqWait
    split
    · trivial
    · exact touchesDma_irqWait ‹_›
    · exact afterPhase_keeps (touchesDma_irqWait ‹_›) rfl rfl rfl rfl
    · exact ⟨touchesDma_irqWait ‹_›, rfl, rfl, rfl, rfl⟩
  case wp5 =>
    unfold dmaAck
    simp only
    have hp := hw .irqPending d.pend (by cases e <;> rfl)
    split
    · exact afterPhase_keeps hp rfl rfl rfl rfl
    · exact ⟨hp, rfl, rfl, rfl, rfl⟩
  case pd1 =>
    split
    · exact ⟨hr, rfl, rfl, rfl, rfl⟩
    · exact ⟨hr, rfl, rfl, rfl, rfl⟩
  case back => exact hr
  all_goals first
    | exact ⟨hw _ _ (by cases e <;> rfl), rfl, rfl, rfl, rfl⟩
    | exact ⟨hr, rfl, rfl, rfl, rfl⟩

/-- A DMA procedure returns OK with its size or with 0, `E_NOT_OPEN` or `E_SIZE` from its first step, or `E_BUS`
from its interrupt wait; never `E_TIMEOUT` (R504, R509, R511). The step that returns changes nothing. -/
theorem dmaStep_status {e : Engine} {l : DmaLabel} {d : DmaLocals} {s t : State} {st : Status} {v : U32}
    (h : dmaStep e l d s = .ret st v t) :
    (l = .d1 ∧ t = s ∧ (st = .eNotOpen ∨ st = .eSize ∨ (st = .ok ∧ d.size = 0#32 ∧ v = 0#32))) ∨
      (l = .wp3 ∧ st = .eBus ∧ t = s) ∨ (l = .back ∧ st = .ok ∧ v = d.size ∧ t = s) := by
  have ha : ∀ d' s', afterPhase e d' s' ≠ .ret st v t := by
    intro d' s' h'
    unfold afterPhase at h'
    split at h'
    · cases h'
    · split at h'
      · cases h'
      · split at h' <;> cases h'
  cases l <;> simp only [dmaStep] at h
  case d1 =>
    unfold dmaCheck at h
    split at h
    · cases h; exact .inl ⟨rfl, rfl, .inl rfl⟩
    · split at h
      · cases h; exact .inl ⟨rfl, rfl, .inr (.inl rfl)⟩
      · split at h
        · cases h; exact .inl ⟨rfl, rfl, .inr (.inr ⟨rfl, ‹_›, rfl⟩)⟩
        · cases h
  case d12 => split at h <;> cases h
  case wp1 =>
    split at h
    · exact absurd h (ha _ _)
    · cases h
  case wp3 =>
    unfold dmaIrqWait at h
    split at h
    · cases h
    · rename_i hw
      cases h
      rcases State.irqWait_eq_some hw with ⟨h', -⟩ | ⟨h', -⟩ | ⟨-, -, -, h'⟩
      · cases h'
      · cases h'
      · exact .inr (.inl ⟨rfl, rfl, h'⟩)
    · exact absurd h (ha _ _)
    · cases h
  case wp5 =>
    unfold dmaAck at h
    simp only at h
    split at h
    · exact absurd h (ha _ _)
    · cases h
  case pd1 => split at h <;> cases h
  case back => cases h; exact .inr (.inr ⟨rfl, rfl, rfl, rfl⟩)
  all_goals cases h

/-! ## Register maps (R131, R140, R141, R404) -/

theorem offsetsLegal_nodup {os : List U32} (h : offsetsLegal os = true) : os.Nodup := by
  unfold offsetsLegal at h
  simp only [Bool.and_eq_true, decide_eq_true_eq] at h
  exact h.1

theorem offsetsLegal_aligned {os : List U32} (h : offsetsLegal os = true) : ∀ o ∈ os, o.toNat % 4 = 0 := by
  unfold offsetsLegal at h
  simp only [Bool.and_eq_true, List.all_eq_true, beq_iff_eq] at h
  exact h.2

theorem find_of_nodup {β : Type} {ps : List (U32 × β)} (h : (ps.map Prod.fst).Nodup) {o : U32} {r : β}
    (hm : (o, r) ∈ ps) : (ps.find? fun p => p.1 == o) = some (o, r) := by
  induction ps with
  | nil => cases hm
  | cons p ps ih =>
    simp only [List.map_cons, List.nodup_cons] at h
    rcases List.mem_cons.1 hm with rfl | hm
    · simp
    · have hne : p.1 ≠ o := fun he => h.1 (he ▸ List.mem_map_of_mem (f := Prod.fst) hm)
      have hb : (p.1 == o) = false := by simpa using hne
      rw [List.find?_cons, hb]
      exact ih h.2 hm

/-- The offsets of a space's registers. -/
theorem regTable_offsets (c : Config) (sp : Space) : (regTable c sp).map Prod.fst = match sp with
    | .mtx => c.modemTxMap.offsets
    | .mrx => c.modemRxMap.offsets c.frCoefCount
    | .dtx => c.dmacMap.offsets
    | .drx => c.dmacMap.offsets := by
  cases sp with
  | mtx => rfl
  | mrx =>
    simp only [regTable, modemRxTable, ModemRxMap.offsets, ModemRxMap.frCoefs, List.map_append, List.map_take]
    rfl
  | dtx => rfl
  | drx => rfl

theorem regTable_legal {c : Config} (h : c.wf = true) (sp : Space) :
    offsetsLegal ((regTable c sp).map Prod.fst) = true := by
  have h' := h
  simp only [Config.wf] at h'
  rw [regTable_offsets]
  cases sp <;> simp_all [Config.dmacMapOk, Config.modemTxMapOk, Config.modemRxMapOk]

/-- Under a legal configuration an offset names exactly the register its space's table gives it. -/
theorem regAt_eq_some_iff {c : Config} (h : c.wf = true) {sp : Space} {o : U32} {r : Reg} :
    regAt c sp o = some r ↔ (o, r) ∈ regTable c sp := by
  have hl := regTable_legal h sp
  constructor
  · intro ha
    unfold regAt at ha
    split at ha
    · obtain ⟨p, hp, hr⟩ := Option.map_eq_some_iff.1 ha
      have h1 := List.find?_some hp
      simp only [beq_iff_eq] at h1
      have h2 := List.mem_of_find?_eq_some hp
      rw [← h1, ← hr]
      exact h2
    · cases ha
  · intro hm
    have ha : o.toNat % 4 = 0 := offsetsLegal_aligned hl o (List.mem_map_of_mem (f := Prod.fst) hm)
    unfold regAt
    rw [if_pos ha, find_of_nodup (offsetsLegal_nodup hl) hm]
    rfl

/-- An offset that no register of the space has is unmapped. -/
theorem regAt_eq_none {c : Config} {sp : Space} {o : U32} (h : o.toNat % 4 ≠ 0 ∨ ∀ p ∈ regTable c sp, p.1 ≠ o) :
    regAt c sp o = none := by
  unfold regAt
  split
  · rename_i ha
    have h' := h.resolve_left (fun hn => hn ha)
    rw [Option.map_eq_none_iff, List.find?_eq_none]
    intro p hp
    simpa using h' p hp
  · rfl

/-! ## Several steps in a row -/

theorem execTimes_succ {i : Instr} {k : Nat} {s t : State} (h : exec i s = .next t) :
    execTimes i (k + 1) s = execTimes i k t := by
  simp [execTimes, h]

theorem execTimes_add {i : Instr} {j k : Nat} {s t : State} (h : execTimes i j s = .next t) :
    execTimes i (j + k) s = execTimes i k t := by
  induction j generalizing s with
  | zero =>
    cases h
    simp
  | succ j ih =>
    cases hs : exec i s with
    | next u =>
      rw [execTimes_succ hs] at h
      rw [show j + 1 + k = (j + k) + 1 by omega, execTimes_succ hs, ih h]
    | fault r => simp [execTimes, hs] at h
    | refused r => simp [execTimes, hs] at h

theorem actAll_cons {m : Move} {ms : List Move} {s t : State} (h : act m s = .next t) :
    actAll (m :: ms) s = actAll ms t := by
  simp [actAll, h]

theorem actAll_append {ms ns : List Move} {s t : State} (h : actAll ms s = .next t) :
    actAll (ms ++ ns) s = actAll ns t := by
  induction ms generalizing s with
  | nil =>
    cases h
    rfl
  | cons m ms ih =>
    cases hs : act m s with
    | next u =>
      rw [actAll_cons hs] at h
      rw [List.cons_append, actAll_cons hs, ih h]
    | fault r => simp [actAll, hs] at h
    | refused r => simp [actAll, hs] at h

/-! ## Quiescence (R22) -/

/-- Only an issue ends quiescence: any other move of a quiescent state leads to one. -/
theorem State.quiescent.act {m : Move} {s t : State} (hq : s.quiescent) (hm : ∀ w, m ≠ .host (.issue w))
    (h : act m s = .next t) : t.quiescent := by
  obtain ⟨u, hu, rfl⟩ := act_eq_next h
  suffices hs : u.quiescent from hs
  obtain ⟨h1, h2, h3, h4, h5, h6⟩ := hq
  cases m with
  | host a =>
    cases a with
    | writeArg c i v =>
      simp only [moveBody, hostStep] at hu
      split at hu <;> cases hu
      · exact ⟨h1, h2, h3, h4, h5, h6⟩
      · cases c <;> exact ⟨h1, h2, h3, h4, h5, h6⟩
    | issue w => exact absurd rfl (hm w)
    | readReg r =>
      simp only [moveBody, hostStep] at hu
      split at hu <;> cases hu <;> exact ⟨h1, h2, h3, h4, h5, h6⟩
    | readMem a n =>
      simp only [moveBody, hostStep] at hu
      split at hu <;> cases hu
      exact ⟨h1, h2, h3, h4, h5, h6⟩
    | writeMem a bs =>
      simp only [moveBody, hostStep] at hu
      split at hu <;> cases hu
      exact ⟨h1, h2, h3, h4, h5, h6⟩
  | channel c p =>
    have hb : (({ s with pick := p } : State).chan c).busy = false := by cases c <;> assumption
    simp only [moveBody, channelStep, hb, if_true] at hu
    cases hu
    exact ⟨h1, h2, h3, h4, h5, h6⟩
  | worker p =>
    simp only [moveBody, workerStep, h4] at hu
    cases hu
    exact ⟨h1, h2, h3, h4, h5, h6⟩
  | dmac e =>
    have hd : (s.dmac e).queue = [] := by cases e <;> assumption
    simp only [moveBody, dmacStep, hd] at hu
    cases hu
    exact ⟨h1, h2, h3, h4, h5, h6⟩
  | modemRx len f =>
    simp only [moveBody, modemRxStep] at hu
    split at hu <;> cases hu <;> exact ⟨h1, h2, h3, h4, h5, h6⟩
  | modemTx => cases hu; exact ⟨h1, h2, h3, h4, h5, h6⟩
  | clock => cases hu; exact ⟨h1, h2, h3, h4, h5, h6⟩
  | reset => cases hu; exact ⟨rfl, rfl, rfl, rfl, rfl, rfl⟩

/-- A run that is quiescent at one of its states stays so. -/
theorem Run.quiescentAt_succ {r : Run} {n : Nat} (h : r.quiescentAt n) : r.quiescentAt (n + 1) :=
  ⟨h.1.act (h.2 n (Nat.le_refl n)) (r.goes n), fun k hk => h.2 k (by omega)⟩

end Sys2Proof.Machine
end

