-- ==== Sys2Proof/Tests/Slice0.lean ====
section
/-! SUPPORT. Tests, each expected value from the spec (the vector of 95_test_vectors.md is named where there is one), and
for each statement with hypotheses a witness: a concrete state and operands that meet them, at a boundary value of each
clause's range. -/

namespace Sys2Proof.Tests

open Sys2Proof Sys2Proof.Machine

/-! ## Helpers -/

def zeroHdr : Hdr := ⟨0#32, 0#32, 0#32, 0#32, 0#32, 0#32, 0#32, 0#16, 0#16⟩

/-- The state after reset under TCFG, with a plain first header. -/
def base : State := { rx := { hdr0 := zeroHdr }, cfg := Config.initial }

/-- Both engines open, both sides initialised. -/
def ready : State :=
  { base with openTx := true, openRx := true, txInited := true, rx := { base.rx with inited := true } }

/-- A channel that stands at a label of a command with these operands. -/
def at_ (c : Channel) (w : U32) (l : Label) (a : Operands) (s : State) : State :=
  s.setChan c { s.chan c with busy := true, cmd := w, opd := a, pc := l }

/-- With these locals. -/
def withLoc (c : Channel) (x : Locals) (s : State) : State := s.setChan c { s.chan c with loc := x }

/-- The answer is a next state with the property. -/
def goesTo (r : Result) (p : State → Bool) : Bool :=
  match r with
  | .next t => p t
  | _ => false

/-- The answer is a completion with this status and these first results. -/
def done (c : Channel) (st : Int) (vs : List U32) (r : Result) : Bool :=
  goesTo r fun t => !(t.chan c).busy && (t.chan c).status.toInt == st &&
    ((List.range vs.length).map fun i => (t.chan c).res.get (Fin.ofNat 10 i)) == vs

/-! ## Configurations (R8): each check refuses an ill-formed one -/

theorem test_initial_config_is_legal : Config.initial.wf = true := by decide

theorem test_buffer_size_refused : { Config.initial with bufSizeTx := 48 }.wf = false := by decide
theorem test_buffer_window_refused : { Config.initial with bufPhysRx := 2 ^ 32 - 4095 }.wf = false := by decide
theorem test_overlapping_windows_refused : { Config.initial with bufPhysRx := 0x10000FFF }.wf = false := by decide
theorem test_host_memory_refused : { Config.initial with hostMemSize := 2 ^ 32 }.wf = false := by decide
theorem test_reserved_pad_refused : { Config.initial with resvPad := 12 }.wf = false := by decide
theorem test_mtu_order_refused : { Config.initial with minMtu := 1032 }.wf = false := by decide
theorem test_max_frame_refused : { Config.initial with maxFrameSize := 111 }.wf = false := by decide
theorem test_default_mtu_refused : { Config.initial with maxFrameSize := 1080 }.wf = false := by decide
theorem test_backpressure_refused : { Config.initial with bpThrottleEvery := 0 }.wf = false := by decide
theorem test_transfer_ids_refused : { Config.initial with numTransferIds := 3 }.wf = false := by decide
theorem test_dmac_map_refused : { Config.initial with dmacMap := { flags := 0x400#32 } }.wf = false := by decide
theorem test_tx_map_refused : { Config.initial with modemTxMap := { txSrcSel := 0x06#32 } }.wf = false := by decide
theorem test_rx_map_refused : { Config.initial with modemRxMap := { frCoef3 := 0x00#32 } }.wf = false := by decide
theorem test_coefficients_refused : { Config.initial with frCoefCount := 5 }.wf = false := by decide
theorem test_timeout_refused : { Config.initial with dmaIrqTimeoutMs := 0 }.wf = false := by decide
theorem test_sentinel_refused : { Config.initial with rxLenInvalid := [4096#32] }.wf = false := by decide
theorem test_queue_depth_refused : { Config.initial with rxqDepth := 0 }.wf = false := by decide

/-! ## Words written out from R302, R303 and R305: every row -/

theorem test_bus_words :
    decode 0b00000001_00000001_000000_10_00000000#32 = .ok (.regRead .dtx) ∧
    decode 0b00000001_00000010_000000_01_00000000#32 = .ok (.regWrite .mrx) ∧
    decode 0b00000001_00000011_000000_00_00000000#32 = .ok (.irqMask .mtx) ∧
    decode 0b00000001_00000100_000000_11_00000000#32 = .ok (.irqUnmask .drx) ∧
    decode 0b00000001_00000101_000000_01_00000000#32 = .ok (.irqWait .mrx) := by decide

/-- E1 to E4. -/
theorem test_dma_words :
    decode 0b00000010_00000001_0000000_1_00000000#32 = .ok (.dmaOpen .rx) ∧
    decode 0b00000010_00000010_00000_1_0_0_00000000#32 = .ok (.dmaWrite .tx false true) ∧
    decode 0b00000010_00000010_00000_1_1_0_00000000#32 = .ok (.dmaWrite .tx true true) ∧
    decode 0b00000010_00000010_00000_0_0_1_00000000#32 = .ok (.dmaWrite .rx false false) ∧
    decode 0b00000010_00000011_0000000_1_00000000#32 = .ok (.dmaRead .rx) ∧
    decode 0b00000010_00000100_0000000_0_00000000#32 = .ok (.dmaClose .tx) := by decide

theorem test_codec_words :
    decode 0b00000011_00000001_0000000_0_00000000#32 = .ok (.codecEncode .tx) ∧
    decode 0b00000011_00000010_0000000_1_00000000#32 = .ok (.codecDecode .rx) ∧
    decode 0b00000011_00000011_0000000_1_00000000#32 = .ok (.codecCrc .rx) := by decide

theorem test_tx_words :
    decode 0x04010000#32 = .ok .txInit ∧ decode 0x04020000#32 = .ok .txReset ∧ decode 0x04030000#32 = .ok .txWrite ∧
    decode 0x04040000#32 = .ok .txClose ∧ decode 0x04050000#32 = .ok .txSetMtu := by decide

theorem test_rx_words :
    decode 0x05010000#32 = .ok .rxInit ∧ decode 0x05020000#32 = .ok .rxReset ∧ decode 0x05030000#32 = .ok .rxStart ∧
    decode 0x05040000#32 = .ok .rxStop ∧ decode 0x05050000#32 = .ok .rxReceive ∧ decode 0x05060000#32 = .ok .rxRead ∧
    decode 0x05070000#32 = .ok .rxClose := by decide

/-- E7 to E15. -/
theorem test_illegal_words :
    ([0x04010100#32, 0x02030400#32, 0x01010400#32, 0x01060000#32, 0x05080000#32, 0x00000000#32, 0x06010000#32,
      0x04030001#32, 0x03040000#32].all fun w => (decode w).toOption.isNone) = true := by decide

theorem test_table_word : decodeTableWord 32 0x02020400 = some (.dmaWrite .tx false true) := by decide

/-! ## BUS commands (section 4 of the vectors) -/

/-- B1, B5. -/
theorem test_reg_read :
    done .bus 0 [3#32] (exec (.regRead .dtx) (at_ .bus 0x01010200#32 .regRead { a0 := 0x080#32 } base)) = true ∧
    done .bus (-5) [] (exec (.regRead .dtx) (at_ .bus 0x01010200#32 .regRead { a0 := 0x082#32 } base)) = true := by
  decide

/-- B10, B11. -/
theorem test_reg_write :
    goesTo (exec (.regWrite .dtx) (at_ .bus 0x01020200#32 .regWrite { a0 := 0x084#32, a1 := 1#32 }
      { base with dtx := { irqPending := 3#32 } })) (fun t => t.dtx.irqPending == 2#32) = true ∧
    goesTo (exec (.regWrite .dtx) (at_ .bus 0x01020200#32 .regWrite { a0 := 0x080#32, a1 := 0xFFFFFFFF#32 } base))
      (fun t => t.dtx.irqMask == 3#32) = true := by
  decide

/-- The RX IP core enabled, with a frame of three bytes that it reports as 304. -/
def framed : State := { ready with mrx := { rxEnable := 1#32, rxq := [(304#32, [1#8, 2#8, 3#8])] } }

/-- B14, then B16. -/
theorem test_irq_unmask :
    goesTo (exec (.irqUnmask .mrx) (at_ .bus 0x01040100#32 .irqUnmask {} framed))
      (fun t => decide (t.line .mrx = { masked := true, latched := true })) = true := by
  decide

theorem test_irq_mask :
    goesTo (exec (.irqMask .mrx) (at_ .bus 0x01030100#32 .irqMask {}
      (framed.setLine .mrx { masked := true, latched := true })))
      (fun t => decide (t.line .mrx = { masked := true, latched := false })) = true := by
  decide

/-- B17, B19. -/
theorem test_irq_wait :
    done .bus 0 [1#32] (exec (.irqWait .mrx) (at_ .bus 0x01050100#32 .irqWait { a0 := 100#32 }
      (framed.setLine .mrx { masked := true, latched := true }))) = true ∧
    done .bus 0 [0#32] (exec (.irqWait .mtx) (at_ .bus 0x01050000#32 .irqWait { a0 := 0#32 }
      { base with pick := .expire })) = true := by
  decide

/-! ## DMA commands (section 5) -/

theorem test_dma_open :
    done .tx 0 [4096#32, 0x10000000#32] (exec (.dmaOpen .tx) (at_ .tx 0x02010000#32 .dmaOpen {} base)) = true := by
  decide

/-- D3, D5: the size check is exact. -/
theorem test_dma_write_size :
    done .tx (-1) [] (exec (.dmaWrite .tx false true)
      (at_ .tx 0x02020400#32 (.dma .d1) { a0 := 4000#32, a1 := 97#32 } ready)) = true ∧
    done .tx (-1) [] (exec (.dmaWrite .tx false true)
      (at_ .tx 0x02020400#32 (.dma .d1) { a0 := 0xFFFFFFFF#32, a1 := 1#32 } ready)) = true := by
  decide

/-- D2's submit: the record `{0, 0x10000FA0, 96, 0, 0}` is queued, `TRANSFER_ID = 1`; and R506: without `CNF` the write
returns after a timed-out SOT with its transfer still queued. -/
theorem test_dma_write_submit :
    goesTo (exec (.dmaWrite .tx false true) (at_ .tx 0x02020400#32 (.dma .d12) { a0 := 4000#32, a1 := 96#32 }
      { ready with dtx := { control := 1#32, srcAddress := 0x10000FA0#32, srcStride := 96#32, xLength := 95#32 } }))
      (fun t => decide (t.dtx.queue = [⟨0#32, 0x10000FA0, 1, 96, 96, false, false⟩] ∧ t.dtx.transferId = 1#32)) = true ∧
    goesTo (actAll (dmaWriteUnconfirmedTimeoutSchedule 1)
      { at_ .tx 0x02020000#32 (.dma .d1) { a0 := 4000#32, a1 := 96#32 } ready with
        cfg := { Config.initial with dmaIrqTimeoutMs := 1 } })
      (fun t => !t.chTx.busy && t.chTx.res.get 0 == 96#32 && t.dtx.queue.length == 1 && t.timeMs == 1) = true := by
  decide

/-- D7, D13. -/
theorem test_dma_read_refused :
    done .tx (-8) [] (exec (.dmaRead .tx) (at_ .tx 0x02030000#32 (.dma .d1) { a1 := 16#32 } ready)) = true ∧
    done .rx (-7) [] (exec (.dmaRead .rx) (at_ .rx 0x02030100#32 (.dma .d1) { a1 := 16#32 }
      { ready with worker := { pc := .w3 } })) = true := by
  decide

/-- D15: the abort. -/
theorem test_dma_close :
    goesTo (execTimes (.dmaClose .tx) 2 (at_ .tx 0x02040000#32 .dcl1 {}
      { ready with dtx := { control := 1#32, queue := [⟨0#32, 0x10000000, 1, 64, 64, true, true⟩] } }))
      (fun t => t.dtx.queue.isEmpty && t.dtx.control == 0#32 && !t.openTx && (t.line .dtx).masked) = true := by
  decide

/-! ## CODEC commands (section 6) -/

/-- C2, C3, C6. -/
theorem test_crc_vectors :
    crcCcitt [] = 0xFFFF#16 ∧ crcCcitt [0#8] = 0xE1F0#16 ∧ crcCcitt [1#8, 2#8, 3#8, 4#8] = 0x89C3#16 := by decide +kernel

/-- T19's header. -/
theorem test_header_bytes :
    hdrBytes ⟨0x0D15EA5E#32, 1#32, 1#32, 0#32, 1#32, 976#32, 1#32, 0xE1F0#16, 0xE1F0#16⟩ =
      [0x5e#8, 0xea#8, 0x15#8, 0x0d#8, 1#8, 0#8, 0#8, 0#8, 1#8, 0#8, 0#8, 0#8, 0#8, 0#8, 0#8, 0#8, 1#8, 0#8, 0#8, 0#8,
       0xd0#8, 3#8, 0#8, 0#8, 1#8, 0#8, 0#8, 0#8, 0xf0#8, 0xe1#8, 0xf0#8, 0xe1#8] := by
  decide

/-- K6: a header-only frame. -/
theorem test_codec_encode :
    done .tx 0 [48#32, 0xFFFF#32] (execTimes (.codecEncode .tx) 2 (at_ .tx 0x03010000#32 .enc1
      { a0 := 1000#32, a3 := 256#32, a4 := 7#32, a6 := 1#32 } ready)) = true := by
  decide

/-- 32 zero bytes, then 24 more, listed in `TXBUF` from 2048. -/
def zeros : State := ready.writeMem (.buf .tx) 2048 (List.replicate 56 0#8)

/-- K11. -/
theorem test_codec_decode :
    done .tx 0 [1#32, 0#32, 0#32, 0#32, 0#32, 0#32, 0#32, 0#32, 0#32, 0xFFFF#32]
      (execTimes (.codecDecode .tx) 2 (at_ .tx 0x03020000#32 .dec1 { a0 := 2048#32 } zeros)) = true := by
  decide

/-- K4, K5, and C7. -/
theorem test_codec_crc :
    done .tx 0 [0xFFFF#32] (exec (.codecCrc .tx) (at_ .tx 0x03030000#32 .crc1 { a0 := 4096#32 } ready)) = true ∧
    done .tx (-1) [] (exec (.codecCrc .tx) (at_ .tx 0x03030000#32 .crc1 { a0 := 4096#32, a1 := 1#32 } ready)) = true ∧
    done .tx 0 [0x313E#32] (exec (.codecCrc .tx) (at_ .tx 0x03030000#32 .crc1 { a0 := 2048#32, a1 := 8#32 } zeros)) = true := by
  decide +kernel

/-! ## TX commands (section 7) -/

theorem test_tx_init :
    done .tx 0 [4096#32, 0x10000000#32] (exec .txInit (at_ .tx 0x04010000#32 .txInit {} base)) = true := by decide

/-- T1, T2, T4, T6, T7. -/
theorem test_norm_mtu :
    ([0#32, 63#32, 65#32, 1024#32, 1025#32].map fun c => normMtu Config.initial c) = [976, 976, 64, 1024, 976] := by decide

/-- T5. -/
theorem test_tx_setmtu :
    done .tx 0 [256#32] (exec .txSetMtu (at_ .tx 0x04050000#32 .txSetMtu { a0 := 260#32 } ready)) = true := by decide

/-- T30, T31. -/
theorem test_tx_reset :
    done .tx 0 [0#32] (execTimes .txReset 4 (at_ .tx 0x04020000#32 .tr1 { a0 := 1#32 } ready)) = true ∧
    done .tx (-6) [] (exec .txReset (at_ .tx 0x04020000#32 .tr1 { a0 := 1#32 } base)) = true := by
  decide

/-- T16, T18; and a flush that finds the engine closed ends the command with its status (R714, R718). -/
theorem test_tx_write_checks :
    done .tx (-6) [] (exec .txWrite (at_ .tx 0x04030000#32 (.tsFlush .d1) {} base)) = true ∧
    done .tx (-1) [] (exec .txWrite (at_ .tx 0x04030000#32 .tw1 {} ready)) = true ∧
    done .tx (-1) [] (exec .txWrite (at_ .tx 0x04030000#32 .tw1 { a0 := 65000#32, a1 := 600#32 } ready)) = true := by
  decide

/-- T10, T15: three frames staged; the exact fill refused, and the default MTU kept. -/
theorem test_tx_write_plan :
    goesTo (exec .txWrite (withLoc .tx { n := 600 } (at_ .tx 0x04030000#32 .tw2 {} { ready with cfgMtu := 256#32 })))
      (fun t => t.chTx.loc.nf == 3 && decide (t.chTx.pc = .tsEnc) && t.packId == 1#32) = true ∧
    goesTo (exec .txWrite (withLoc .tx { n := 2929 } (at_ .tx 0x04030000#32 .tw2 {} ready)))
      (fun t => t.chTx.status.toInt == -9 && t.cfgMtu == 976#32 && t.packId == 0#32) = true := by
  decide

/-- T32. -/
theorem test_tx_close :
    goesTo (execTimes .txClose 2 (at_ .tx 0x04040000#32 .tcl1 {} { ready with packId := 5#32 }))
      (fun t => !t.txInited && !t.openTx && t.packId == 5#32 && !t.chTx.busy) = true := by
  decide

/-! ## RX commands (section 8) -/

theorem test_rx_init :
    done .rx 0 [4096#32, 0x11000000#32] (exec .rxInit (at_ .rx 0x05010000#32 .rxInit {} base)) = true := by decide

/-- RX-ready, its step 3: fifteen steps with coefficients, and `configured` at the end. -/
theorem test_rx_reset :
    goesTo (execTimes .rxReset 15 (at_ .rx 0x05020000#32 .rr1
      { a0 := 0x100#32, a1 := 0x200#32, a2 := 7#32, a3 := 0x40#32, a7 := 9#32 } ready))
      (fun t => t.rx.configured && t.mrx.loopBw == 0x100#32 && t.mrx.bypassEq == 1#32 && t.mrx.frCoef3 == 9#32 &&
        t.mrx.rxEnable == 1#32 && !t.chRx.busy) = true := by
  decide

theorem test_rx_start :
    goesTo (exec .rxStart (at_ .rx 0x05030000#32 .rxStart {} ready)) (fun t => t.mrx.rxEnable == 1#32) = true := by decide

theorem test_rx_stop :
    goesTo (execTimes .rxStop 2 (at_ .rx 0x05040000#32 .rp1 {}
      { framed with worker := { pc := .w3 }, rx := { framed.rx with done := false } }))
      (fun t => t.mrx.rxEnable == 0#32 && t.rx.done && t.mrx.rxq.length == 1) = true := by
  decide

/-- R810: without a reset since the last arming, and the count before the worker's code (R814). -/
theorem test_rx_receive :
    done .rx (-26) [] (exec .rxReceive (at_ .rx 0x05050000#32 .rv1 {} ready)) = true ∧
    done .rx 0 [600#32, 3#32, 3#32] (exec .rxReceive (at_ .rx 0x05050000#32 .rv8 {}
      { ready with rx := { ready.rx with
        count := 3#32, workerRet := Status.rxFrameInvalid.code
        hdr0 := { zeroHdr with packSz := 600#32, numFrames := 3#32 } } })) = true := by
  decide

/-- R820: an empty table is read in one step more; the destination must exist. -/
theorem test_rx_read :
    done .rx 0 [0#32, 0#32, 0#32] (execTimes .rxRead 2 (at_ .rx 0x05060000#32 .rd3 { a0 := 65535#32, a1 := 1#32 } ready)) =
      true ∧
    done .rx (-1) [] (exec .rxRead (at_ .rx 0x05060000#32 .rd3 { a0 := 65536#32, a1 := 1#32 } ready)) = true := by
  decide

theorem test_rx_close :
    goesTo (execTimes .rxClose 7 (at_ .rx 0x05070000#32 .rc1 {} ready))
      (fun t => !t.openRx && !t.rx.inited && t.rx.done && !t.chRx.busy) = true := by
  decide

/-- S11: offsets 0, 308, 617 and 759 at reported lengths 304, 304 and 136. -/
theorem test_advance :
    advance Config.initial 304 1 = 308 ∧ 308 + advance Config.initial 304 2 = 617 ∧
      617 + advance Config.initial 136 3 = 759 := by
  decide

/-- R202: a transfer of two rows, the second one byte past the window, is wild; it is dropped and moves nothing. -/
theorem test_wild_transfer :
    let s := dmacStep .tx { ready with dtx := { control := 1#32, queue := [⟨0#32, 0x10000000, 2, 96, 4001, false, true⟩] } }
    (s.faultDmaWild && s.dtx.queue.isEmpty && s.log.isEmpty && s.dtx.irqPending == 0#32) = true := by
  decide

/-! ## The interface -/

/-- A word placed after reset runs at the very next step. -/
theorem test_fetch_word :
    done .bus (-5) [] (step (State.reset.withFetchWord 32 0x01020300)) = true ∧
    done .bus 0 [0#32] (step (State.reset.withFetchWord 32 0x01010000)) = true := by
  decide

/-- A word that spells nothing is reported as illegal. -/
theorem test_fetch_illegal_word :
    goesTo (step (State.reset.withFetchWord 32 0x04030001)) (fun t => t.issueStatus.toInt == -8) = true := by
  decide

/-! ## A state in the middle of a receive cycle, which meets every invariant -/

/-- The consumer waits for frame 1; the worker is about to submit its read of that frame; frame 0 is published. -/
def mid : State :=
  { base with
    chRx := { busy := true, cmd := 0x05050000#32, pc := .rv9, loc := { c0 := 1#32, deadline := 60000 } }
    openRx := true
    drx := { irqMask := 0#32, control := 1#32, destAddress := 0x11000134#32, destStride := 304#32, xLength := 303#32,
             transferId := 1#32, transferDone := 1#32 }
    mrx := { rxEnable := 1#32, rxq := [(304#32, [1#8, 2#8])] }
    rx := { inited := true, state := .receiving, count := 1#32, table := [(0, 0#32)], nextOff := 308, done := false
            hdr0 := { zeroHdr with packSz := 600#32, numFrames := 3#32 } }
    worker := { pc := .w7 .d12, len := 304#32, off := 308
                dma := { off := 308, size := 304#32, cnf := true, id := 1#32 } }
    script := [.worker .wake] }

theorem mid_steps : ∃ t, step mid = .next t := ⟨_, rfl⟩

theorem mid_labelled : mid.Labelled := by
  intro c
  cases c
  · exact .inl ⟨rfl, rfl⟩
  · exact .inr ⟨rfl, .rxReceive, by decide, rfl, rfl⟩
  · exact .inl ⟨rfl, rfl⟩

theorem mid_canonical : mid.Canonical := by constructor <;> decide

theorem mid_dmac_legal (e : Engine) : (mid.dmac e).Legal mid.cfg := by cases e <;> constructor <;> decide

theorem mid_regs_legal : mid.RegsLegal := by
  constructor
  · exact mid_dmac_legal .tx
  · exact mid_dmac_legal .rx
  all_goals decide

theorem mid_lines_settled : mid.LinesSettled := by
  constructor
  · intro l; cases l <;> decide
  · decide

theorem mid_phase_follows : mid.PhaseFollowsConsumer := by constructor <;> decide

theorem mid_worker_owns : mid.WorkerOwns := by constructor <;> decide

theorem mid_worker_healthy : mid.WorkerHealthy := by constructor <;> decide

theorem mid_table_ordered : mid.TableOrdered := by
  constructor
  case increasing =>
    intro j h
    have : mid.rx.count.toNat = 1 := rfl
    omega
  all_goals decide

theorem mid_bytes_in_bounds : mid.BytesInBounds := by
  constructor
  · decide
  · decide
  · decide
  · constructor
    case build => intro h; rcases h with h | h | h | h <;> cases h
    case flush => intro l h; cases h
    all_goals decide

theorem mid_tame : mid.Tame := by
  constructor
  · decide
  · decide
  · intro l h; cases h
  · intro l h; cases h
  · intro l h; rcases h with h | h | h <;> cases h
  · intro l h
    cases h
    constructor
    · intro _; constructor <;> decide
    all_goals decide
  · decide

/-! ## Witnesses: encoding, reset, issue, steps -/

theorem witness_WordSpellsCommandByMaskAndMatch :
    (0x02020600#32 &&& maskOf (.dmaWrite .tx true true) = matchOf (.dmaWrite .tx true true) ∧
      0x02020600#32 &&& maskOf (.dmaWrite .rx false false) = matchOf (.dmaWrite .rx false false)) ∧
    ∀ i : Instr, 0x01060000#32 &&& maskOf i ≠ matchOf i := by
  refine ⟨by decide, fun i => ?_⟩
  cases i <;> (simp only [maskOf, matchOf]; decide)

theorem witness_InvariantsHoldAtReset : Config.initial.wf = true := by decide

theorem witness_IssueRoutesStartsOrDrops :
    (∃ x, decode 0x06010000#32 = .error x) ∧
    (decode 0x03030000#32 = .ok (.codecCrc .tx) ∧
      ((at_ .tx 0x04030000#32 .tw1 {} ready).chan .tx).busy = true ∧ (ready.chan .tx).busy = false) ∧
    decode 0x01050200#32 = .ok (.irqWait .dtx) ∧ (ready.chan .bus).busy = false := by
  refine ⟨⟨_, rfl⟩, ?_⟩
  decide

theorem witness_HostActsAsAllowed :
    (ready.chan .bus).busy = false ∧ ((at_ .tx 0x04030000#32 .tw1 {} ready).chan .tx).busy = true ∧
    65535 + 1 ≤ base.cfg.hostMemSize ∧ 65536 + 0 ≤ base.cfg.hostMemSize ∧
    65535 + [1#8].length ≤ base.cfg.hostMemSize := by
  decide

/-- A command about to run as the next move. -/
def scripted : State :=
  { at_ .bus 0x01010200#32 .regRead { a0 := 0x428#32 } base with script := [.channel .bus .expire] }

theorem witness_StepRunsDecodedCommand :
    scripted.cfg.wf = true ∧ scripted.script = .channel .bus .expire :: [] ∧ (scripted.chan .bus).busy = true ∧
    decode (scripted.chan .bus).cmd = .ok (.regRead .dtx) ∧ (Instr.regRead .dtx).channel = .bus := by
  decide

/-- Any move at the head of a script under a legal configuration; an idle channel; a busy channel whose word is that of
another channel; an empty script; and an illegal configuration. -/
theorem witness_StepRunsDecodedCommand_moves :
    (∀ m : Move, ({ scripted with script := [m] } : State).script = m :: []) ∧
    (scripted.cfg.wf = true ∧ (scripted.chan .tx).busy = false) ∧
    (let s := at_ .rx 0x01010200#32 .regRead {} base
     s.cfg.wf = true ∧ (s.chan .rx).busy = true ∧ ∀ i, decode (s.chan .rx).cmd = .ok i → i.channel ≠ .rx) ∧
    base.script = [] ∧ ({ base.cfg with rxqDepth := 0 } : Config).wf = false := by
  refine ⟨fun _ => rfl, by decide, ⟨by decide, rfl, fun i h => ?_⟩, rfl, by decide⟩
  cases h
  decide

/-- A dead worker; a living one whose pick is not enabled where another is; and the RX core with room for one entry. -/
theorem witness_DisabledAgentsStandStill :
    (base.takes (.worker .fail) = false ∧ ∃ t, act (.worker .fail) base = .next t) ∧
    (let s := { framed with worker := { pc := .w3 }, timeMs := 1000 }
     s.takes (.worker .wake) = false ∧ s.agentEnabled .rxw = true ∧ ∃ t, act (.worker .wake) s = .next t) ∧
    ({ framed with mrx := { framed.mrx with rxq := List.replicate 7 (1#32, []) } }.takes (.modemRx 0#32 []) = true ∧
      { framed with mrx := { framed.mrx with rxq := List.replicate 8 (1#32, []) } }.takes (.modemRx 0#32 []) = false) :=
  ⟨⟨rfl, _, rfl⟩, ⟨rfl, rfl, _, rfl⟩, by decide⟩

/-- A quiescent state, and one with a cyclic transfer, which is none (R22, D14). -/
theorem test_quiescent :
    ready.quiescent ∧
      ¬ ({ ready with dtx := { control := 1#32, queue := [⟨0#32, 0x10000000, 1, 64, 64, true, true⟩] } }).quiescent := by
  unfold State.quiescent
  decide

theorem witness_LabelsStayLegal : mid.Labelled ∧ ∃ t, step mid = .next t := ⟨mid_labelled, mid_steps⟩

/-- A host read of one byte past the end, and the write of one. -/
theorem witness_NoCommandIsRefused :
    mid.cfg.wf = true ∧ mid.Labelled ∧
    step { mid with script := [.host (.readMem 65536 1)] } = .fault .hostMemRange ∧
    step { mid with script := [.host (.writeMem 65536 [0#8])] } = .fault .hostMemRange :=
  ⟨by decide, mid_labelled, rfl, rfl⟩

theorem witness_TimeoutStatusNeverProduced :
    (∃ t, dmaStep .tx .d1 {} base = .ret .eNotOpen 0#32 t) ∧ mid.NeverTimeout ∧ ∃ t, step mid = .next t :=
  ⟨⟨_, rfl⟩, ⟨by intro c; cases c <;> decide, by decide⟩, mid_steps⟩

/-! ## Witnesses: register bus and interrupt lines -/

theorem witness_RegReadCompletes :
    (Config.initial.dmacMap = {} ∧ Config.initial.modemTxMap = {} ∧ Config.initial.modemRxMap = {}) ∧
    (let s := at_ .bus 0x01010200#32 .regRead { a0 := 0x428#32 } base
     s.cfg.wf = true ∧ s.chBus.pc = .regRead ∧ (s.chBus.opd.a0, .dmac .tx .transferDone) ∈ regTable s.cfg .dtx) ∧
    (let s := at_ .bus 0x01010200#32 .regRead { a0 := 0x429#32 } base
     s.chBus.pc = .regRead ∧ s.chBus.opd.a0.toNat % 4 ≠ 0) ∧
    (let s := at_ .bus 0x01010200#32 .regRead { a0 := 0x42C#32 } base
     s.chBus.pc = .regRead ∧ ∀ p ∈ regTable s.cfg .dtx, p.1 ≠ s.chBus.opd.a0) ∧
    base.mrx.rxq = [] ∧ framed.mrx.rxq = (304#32, [1#8, 2#8, 3#8]) :: [] := by
  decide

theorem witness_RegWriteCompletes :
    (let s := at_ .bus 0x01020100#32 .regWrite { a0 := 0x2C#32, a1 := 7#32 } base
     s.cfg.wf = true ∧ s.chBus.pc = .regWrite ∧ (s.chBus.opd.a0, .mrx (.frCoef 3)) ∈ regTable s.cfg .mrx) ∧
    (let s := at_ .bus 0x01020100#32 .regWrite { a0 := 0x2D#32 } base
     s.chBus.pc = .regWrite ∧ s.chBus.opd.a0.toNat % 4 ≠ 0) ∧
    (let s := at_ .bus 0x01020100#32 .regWrite { a0 := 0x30#32 } base
     s.chBus.pc = .regWrite ∧ ∀ p ∈ regTable s.cfg .mrx, p.1 ≠ s.chBus.opd.a0) := by
  decide

theorem witness_RegWriteEffects :
    (∀ e, Reg.mrx .reset ≠ .dmac e .transferSubmit) ∧ (Reg.mrx .reset = .mrx .reset → Reg.mrx .rxEnable ≠ .mrx .payloadLen) ∧
    (Reg.dmac .tx .transferSubmit = .dmac .tx .transferSubmit ∧ (2#32).getLsbD 0 = false) := by
  refine ⟨?_, by decide, by decide⟩
  intro e h; cases h

/-- Enabled with room; disabled; full. -/
theorem witness_SubmitAppendsAndDisableAborts :
    (1#32).getLsbD 0 = true ∧ (2#32).getLsbD 0 = false ∧
    ((mid.dmac .rx).control.getLsbD 0 = true ∧ (mid.dmac .rx).queue.length ≠ mid.cfg.numTransferIds) ∧
    (base.dmac .tx).control.getLsbD 0 = false ∧
    ({ queue := List.replicate 4 ⟨0#32, 0, 1, 1, 0, false, false⟩ } : Dmac).queue.length = base.cfg.numTransferIds := by
  decide

theorem witness_IrqCommandsComplete :
    ((at_ .bus 0x01030000#32 .irqMask {} base).chBus.pc = .irqMask ∧
      (at_ .bus 0x01040000#32 .irqUnmask {} base).chBus.pc = .irqUnmask) ∧
    (let s := at_ .bus 0x01050100#32 .irqWait { a0 := 100#32 } (framed.setLine .mrx { masked := true, latched := true })
     s.chBus.pc = .irqWait ∧ s.pick = .wake ∧ (s.line .mrx).latched = true) ∧
    (let s := at_ .bus 0x01050100#32 .irqWait { a0 := 100#32 } { base with pick := .expire, timeMs := 100 }
     s.pick = .expire ∧ (s.line .mrx).latched = false ∧ s.chBus.loc.t0 + s.chBus.opd.a0.toNat ≤ s.timeMs) ∧
    (let s := at_ .bus 0x01050100#32 .irqWait {} { base with pick := .fail, cfg := { Config.initial with busMayFail := true } }
     s.pick = .fail ∧ s.cfg.busMayFail = true) ∧
    (let s := at_ .bus 0x01050100#32 .irqWait { a0 := 100#32 } { base with timeMs := 99 }
     (s.line .mrx).latched = false ∧ s.timeMs < s.chBus.loc.t0 + s.chBus.opd.a0.toNat ∧ s.cfg.timeAbstract = false ∧
       s.cfg.busMayFail = false) := by
  decide

theorem witness_LatchRuleEndsEveryStep :
    (∃ t, act (.worker .wake) mid = .next t) ∧ mid.LinesSettled ∧ ∃ t, step mid = .next t :=
  ⟨⟨_, rfl⟩, mid_lines_settled, mid_steps⟩

/-! ## Witnesses: DMA -/

/-- A channel at a label, under another configuration. -/
def under (c : Config) (s : State) : State := { s with cfg := c }

theorem witness_DmaOpenCompletes :
    (let s := at_ .rx 0x02010100#32 .dmaOpen {} ready
     (s.chan Engine.rx.channel).pc = .dmaOpen ∧ s.isOpen .rx = true) ∧
    (let s := at_ .tx 0x02010000#32 .dmaOpen {} (under { Config.initial with platformOkTx := false } base)
     (s.chan Engine.tx.channel).pc = .dmaOpen ∧ s.isOpen .tx = false ∧ s.cfg.platformOk .tx = false) ∧
    (let s := at_ .tx 0x02010000#32 .dmaOpen {} (under { Config.initial with mapOkTx := false } base)
     s.isOpen .tx = false ∧ s.cfg.platformOk .tx = true ∧ s.cfg.mapOk .tx = false) ∧
    (base.isOpen .tx = false ∧ base.cfg.platformOk .tx = true ∧ base.cfg.mapOk .tx = true) := by
  decide

theorem witness_DmaCloseCompletes :
    (let s := at_ .rx 0x02040100#32 .dcl1 {} { ready with worker := { pc := .w3 } }
     (s.chan Engine.rx.channel).pc = .dcl1 ∧ s.worker.pc ≠ .dead) ∧
    (let s := at_ .rx 0x02040100#32 .dcl1 {} ready
     s.worker.pc = .dead ∧ s.isOpen .rx = true) ∧
    (let s := at_ .tx 0x02040000#32 .dcl1 {} base
     (s.chan Engine.tx.channel).pc = .dcl1 ∧ (Engine.tx = .rx → s.worker.pc = .dead) ∧ s.isOpen .tx = false) := by
  decide

/-- A write of the last 96 bytes of `TXBUF` at its first step. -/
def writing (w : U32) : State := at_ .tx w (.dma .d1) { a0 := 4000#32, a1 := 96#32 } ready

theorem witness_DmaWriteCyclicReturnsAtOnce :
    let s := writing 0x02020200#32
    s.cfg.wf = true ∧ s.chTx.pc = .dma .d1 ∧ s.openTx = true ∧ 0 < s32 s.chTx.opd.a1 ∧
      (s.chTx.opd.a0.toNat : Int) + s32 s.chTx.opd.a1 ≤ (s.cfg.bufSizeTx : Int) := by
  decide

/-- The write with `CNF`, or without. -/
def confirming (cnf : Bool) : State := writing (if cnf then 0x02020400#32 else 0x02020000#32)

theorem confirming_legal (cnf : Bool) : (confirming cnf).dtx.Legal (confirming cnf).cfg := by
  cases cnf <;> constructor <;> decide

theorem witness_DmaWriteConfirmedDelivers :
    ∀ cnf : Bool, let s := confirming cnf
    (s.cfg.wf = true ∧ s.dtx.Legal s.cfg) ∧ s.chTx.busy = true ∧ decode s.chTx.cmd = .ok (.dmaWrite .tx false cnf) ∧
      s.chTx.pc = .dma .d1 ∧ s.openTx = true ∧ s.mtx.reset.getLsbD 0 = false ∧ 0 < s32 s.chTx.opd.a1 ∧
      (s.chTx.opd.a0.toNat : Int) + s32 s.chTx.opd.a1 ≤ (s.cfg.bufSizeTx : Int) := by
  intro cnf
  refine ⟨⟨by cases cnf <;> decide, confirming_legal cnf⟩, ?_⟩
  cases cnf <;> decide

/-- A read of the last 96 bytes of `RXBUF` at its first step, with a frame queued. -/
def reading : State := at_ .rx 0x02030100#32 (.dma .d1) { a0 := 4000#32, a1 := 96#32 } framed

theorem reading_legal : reading.drx.Legal reading.cfg := by constructor <;> decide

theorem witness_DmaReadConfirmedDelivers :
    let s := reading
    (s.cfg.wf = true ∧ s.drx.Legal s.cfg) ∧ s.chRx.busy = true ∧ decode s.chRx.cmd = .ok (.dmaRead .rx) ∧
      s.chRx.pc = .dma .d1 ∧ s.openRx = true ∧ s.worker.pc = .dead ∧
      s.mrx.rxq = (304#32, [1#8, 2#8, 3#8]) :: [] ∧ 0 < s32 s.chRx.opd.a1 ∧
      (s.chRx.opd.a0.toNat : Int) + s32 s.chRx.opd.a1 ≤ (s.cfg.bufSizeRx : Int) :=
  ⟨⟨by decide, reading_legal⟩, by decide⟩

/-- With a worker that waits. -/
def alive (s : State) : State := { s with worker := { pc := .w3 } }

/-- A DMA command of an engine at its first step, with an offset and a size. -/
def checking (e : Engine) (off size : U32) : State :=
  at_ e.channel (if e = .tx then 0x02020400#32 else 0x02030100#32) (.dma .d1) { a0 := off, a1 := size } ready

/-- One witness for each check, in their order. -/
theorem witness_DmaChecksInOrder :
    ((checking .rx 0#32 16#32).chRx.pc = .dma .d1 ∧ (checking .tx 0#32 16#32).chTx.pc = .dma .d1) ∧
    (let s := { checking .rx 0#32 16#32 with worker := { pc := .w1 } }
     s.chRx.pc = .dma .d1 ∧ s.worker.pc ≠ .dead) ∧
    (let s := { checking .tx 0#32 16#32 with openTx := false }
     s.chTx.pc = .dma .d1 ∧ s.openTx = false) ∧
    (let s := checking .tx 0#32 0xFFFFFFFF#32
     s.openTx = true ∧ s32 s.chTx.opd.a1 < 0) ∧
    (let s := checking .tx 4000#32 97#32
     s.openTx = true ∧ (s.cfg.bufSizeTx : Int) < (s.chTx.opd.a0.toNat : Int) + s32 s.chTx.opd.a1) ∧
    (let s := checking .tx 4096#32 0#32
     s.openTx = true ∧ s.chTx.opd.a1 = 0#32 ∧ s.chTx.opd.a0.toNat ≤ s.cfg.bufSizeTx) ∧
    (let s := { checking .rx 0#32 16#32 with openRx := false }
     s.chRx.pc = .dma .d1 ∧ s.worker.pc = .dead ∧ s.openRx = false) ∧
    (let s := checking .rx 4001#32 96#32
     s.worker.pc = .dead ∧ s.openRx = true ∧
       (s.cfg.bufSizeRx : Int) < (s.chRx.opd.a0.toNat : Int) + s32 s.chRx.opd.a1) ∧
    (let s := checking .rx 4096#32 0#32
     s.openRx = true ∧ s.chRx.opd.a1 = 0#32 ∧ s.chRx.opd.a0.toNat ≤ s.cfg.bufSizeRx) := by
  decide

/-- The steps after the checks: the largest range; a wait that wakes, one at its deadline, one a millisecond before it, and
one on a bus that fails; a write past its first step, and a read with a dead worker. -/
theorem witness_DmaChecksInOrder_steps :
    (ready.isOpen .rx = true ∧ 0 < s32 4096#32 ∧ ((0 : Nat) : Int) + s32 4096#32 ≤ (ready.cfg.bufSize .rx : Int)) ∧
    (let s := ready.setLine .dtx { masked := true, latched := true }
     s.pick = .wake ∧ (s.line Engine.tx.space).latched = true) ∧
    (let s := { ready with pick := .expire, timeMs := 100 }
     s.pick = .expire ∧ (s.line Engine.tx.space).latched = false ∧ 0 + s.cfg.dmaIrqTimeoutMs ≤ s.timeMs) ∧
    (let s := { ready with timeMs := 99 }
     (s.line Engine.tx.space).latched = false ∧ s.timeMs < 0 + s.cfg.dmaIrqTimeoutMs ∧ s.cfg.timeAbstract = false ∧
       s.cfg.busMayFail = false) ∧
    (let s := under { Config.initial with busMayFail := true } { ready with pick := .fail }
     s.pick = .fail ∧ s.cfg.busMayFail = true) ∧
    ((at_ .tx 0x02020400#32 (.dma .wp3) {} ready).chTx.pc = .dma .wp3 ∧
      (at_ .rx 0x02030100#32 (.dma .wp1) {} (alive ready)).chRx.pc = .dma .wp1 ∧ DmaLabel.wp1 ≠ .d1 ∧
      reading.chRx.pc = .dma .d1 ∧ reading.worker.pc = .dead) := by
  decide

/-- An enabled controller with one record at its head. -/
def transferring (e : Engine) (r : DmaRec) : State := framed.setDmac e { irqMask := 0#32, control := 1#32, queue := [r] }

/-- Not started; started and inside the window to its last byte; started and one byte past it. -/
theorem witness_TransferStartsThenCompletes :
    (let s := transferring .tx ⟨0#32, 0x10000000, 1, 4096, 0, false, false⟩
     ∃ r rest, (s.dmac .tx).queue = r :: rest ∧ (s.dmac .tx).control.getLsbD 0 = true ∧ r.started = false) ∧
    (∀ e : Engine, ∃ (s : State) (r : DmaRec) (rest : List DmaRec), (s.dmac e).queue = r :: rest ∧
      (s.dmac e).control.getLsbD 0 = true ∧ r.started = true ∧ (e = .tx → s.mtx.reset.getLsbD 0 = false) ∧
      (e = .rx → s.mrx.rxq ≠ []) ∧ ∃ k, k < r.rows ∧ ¬ (s.cfg.bufPhys e ≤ r.addr + k * r.stride ∧
        r.addr + k * r.stride + r.rowLen ≤ s.cfg.bufPhys e + s.cfg.bufSize e)) ∧
    ∀ e : Engine, ∃ (s : State) (r : DmaRec) (rest : List DmaRec), (s.dmac e).queue = r :: rest ∧
      (s.dmac e).control.getLsbD 0 = true ∧ r.started = true ∧
      (∀ k, k < r.rows → s.cfg.bufPhys e ≤ r.addr + k * r.stride ∧
        r.addr + k * r.stride + r.rowLen ≤ s.cfg.bufPhys e + s.cfg.bufSize e) ∧ s.mtx.reset.getLsbD 0 = false ∧
      s.mrx.rxq = (304#32, [1#8, 2#8, 3#8]) :: [] ∧ (r.rowLen ≤ r.stride ∨ r.rows ≤ 1) := by
  refine ⟨⟨_, _, rfl, by decide, rfl⟩, fun e => ?_, fun e => ?_⟩
  · cases e
    · exact ⟨transferring .tx ⟨0#32, 0x10000001, 1, 4096, 0, false, true⟩, _, _, rfl, by decide, rfl, by decide, by decide,
        0, by decide, by decide⟩
    · exact ⟨transferring .rx ⟨0#32, 0x11000001, 1, 4096, 0, false, true⟩, _, _, rfl, by decide, rfl, by decide, by decide,
        0, by decide, by decide⟩
  · cases e
    · exact ⟨transferring .tx ⟨0#32, 0x10000000, 2, 96, 4000, false, true⟩, _, _, rfl, by decide, rfl, by decide, by decide,
        rfl, by decide⟩
    · exact ⟨transferring .rx ⟨0#32, 0x11000000, 2, 96, 4000, false, true⟩, _, _, rfl, by decide, rfl, by decide, by decide,
        rfl, by decide⟩

/-- A bit set by the controller's start, and one cleared by a register write. -/
theorem witness_PendingBitsSetByControllerOnly :
    (let s := transferring .tx ⟨0#32, 0x10000000, 1, 64, 0, false, false⟩
     ∃ t, act (.dmac .tx) s = .next t ∧ (t.dmac .tx).irqPending.getLsbD 0 = true ∧
       (s.dmac .tx).irqPending.getLsbD 0 = false) ∧
    (let s := at_ .bus 0x01020200#32 .regWrite { a0 := 0x084#32, a1 := 2#32 } { base with dtx := { irqPending := 2#32 } }
     ∃ t, act (.channel .bus .wake) s = .next t ∧ (t.dmac .tx).irqPending.getLsbD 1 = false ∧
       (s.dmac .tx).irqPending.getLsbD 1 = true ∧ s.pendingWrite (.channel .bus .wake) .tx = some 2#32) :=
  ⟨⟨_, rfl, by decide, by decide⟩, ⟨_, rfl, by decide, by decide, by decide⟩⟩

theorem witness_RegistersStayLegal : mid.RegsLegal ∧ ∃ t, step mid = .next t := ⟨mid_regs_legal, mid_steps⟩

theorem witness_ProceduresNeverProgramWild :
    mid.cfg.wf = true ∧ mid.WorkerOwns ∧ mid.Tame ∧
    ¬ (mid.hostWritesController ∧ ∃ p, Move.worker .wake = .channel .bus p) ∧ ∃ t, act (.worker .wake) mid = .next t :=
  ⟨by decide, mid_worker_owns, mid_tame, (fun h => nomatch h.2.choose_spec), _, rfl⟩

/-! ## Witnesses: codec -/

theorem witness_CrcDetectsOneByteChange :
    (0x00#8 : Byte) ≠ 0x80#8 ∧ Config.initial.crc16 = .ccittFalse ∧ 7 < 8 := by decide

theorem witness_HeaderBytesRoundTrip : (List.replicate 32 0xFF#8).length = 32 := by decide

theorem witness_CodecEncodeCompletes :
    (let s := at_ .rx 0x03010100#32 .enc1 {} { ready with worker := { pc := .w3 } }
     (s.chan Engine.rx.channel).pc = .enc1 ∧ s.worker.pc ≠ .dead) ∧
    (let s := at_ .tx 0x03010000#32 .enc1 {} base
     (Engine.tx = .rx → s.worker.pc = .dead) ∧ s.isOpen .tx = false) ∧
    (let s := at_ .tx 0x03010000#32 .enc1 { a1 := 65436#32, a2 := 101#32 } ready
     s.isOpen .tx = true ∧ s.cfg.hostMemSize < s.chTx.opd.a1.toNat + s.chTx.opd.a2.toNat) ∧
    (let s := at_ .tx 0x03010000#32 .enc1 { a0 := 3961#32, a2 := 81#32 } ready
     s.chTx.opd.a1.toNat + s.chTx.opd.a2.toNat ≤ s.cfg.hostMemSize ∧
       s.cfg.bufSize .tx < s.chTx.opd.a0.toNat + (32 + pad8 s.chTx.opd.a2.toNat + s.cfg.resvPad)) ∧
    (let s := at_ .tx 0x03010000#32 .enc1 { a0 := 3960#32, a1 := 65455#32, a2 := 81#32 } ready
     s.chTx.opd.a1.toNat + s.chTx.opd.a2.toNat ≤ s.cfg.hostMemSize ∧
       s.chTx.opd.a0.toNat + (32 + pad8 s.chTx.opd.a2.toNat + s.cfg.resvPad) ≤ s.cfg.bufSize .tx) := by
  decide

/-- `ready` with a header of zeros but for the payload size, at an offset of `TXBUF`. -/
def headed (o : Nat) (fs : U32) : State :=
  ready.writeMem (.buf .tx) o (List.replicate 24 0#8 ++ le32bytes fs ++ List.replicate 4 0#8)

theorem witness_CodecDecodeCompletes :
    (let s := at_ .rx 0x03020100#32 .dec1 {} { ready with worker := { pc := .w3 } }
     (s.chan Engine.rx.channel).pc = .dec1 ∧ s.worker.pc ≠ .dead) ∧
    (let s := at_ .tx 0x03020000#32 .dec1 {} base
     (Engine.tx = .rx → s.worker.pc = .dead) ∧ s.isOpen .tx = false) ∧
    (let s := at_ .tx 0x03020000#32 .dec1 { a0 := 4065#32 } ready
     s.isOpen .tx = true ∧ s.cfg.bufSize .tx < s.chTx.opd.a0.toNat + 32) ∧
    (let s := at_ .tx 0x03020000#32 .dec1 { a0 := 4064#32 } (headed 4064 1#32)
     s.chTx.opd.a0.toNat + 32 ≤ s.cfg.bufSize .tx ∧
       s.cfg.bufSize .tx < s.chTx.opd.a0.toNat + 32 + (hdrOf (s.readMem (.buf .tx) 4064 32)).frameSz.toNat) ∧
    (let s := at_ .tx 0x03020000#32 .dec1 { a0 := 4063#32 } (headed 4063 1#32)
     s.chTx.opd.a0.toNat + 32 + (hdrOf (s.readMem (.buf .tx) 4063 32)).frameSz.toNat ≤ s.cfg.bufSize .tx) := by
  decide +kernel

theorem witness_CodecCrcCompletes :
    (let s := at_ .rx 0x03030100#32 .crc1 {} { ready with worker := { pc := .w3 } }
     (s.chan Engine.rx.channel).pc = .crc1 ∧ s.worker.pc ≠ .dead) ∧
    (let s := at_ .tx 0x03030000#32 .crc1 {} base
     (Engine.tx = .rx → s.worker.pc = .dead) ∧ s.isOpen .tx = false) ∧
    (let s := at_ .tx 0x03030000#32 .crc1 { a0 := 4096#32, a1 := 1#32 } ready
     s.isOpen .tx = true ∧ s.cfg.bufSize .tx < s.chTx.opd.a0.toNat + s.chTx.opd.a1.toNat) ∧
    (let s := at_ .tx 0x03030000#32 .crc1 { a0 := 4095#32, a1 := 1#32 } ready
     s.isOpen .tx = true ∧ s.chTx.opd.a0.toNat + s.chTx.opd.a1.toNat ≤ s.cfg.bufSize .tx) := by
  decide

theorem witness_EncodedFrameVerifies :
    let s := at_ .rx 0x03020100#32 .dec1 { a0 := 4063#32 } ready
    (s.chan Engine.rx.channel).pc = .dec1 ∧ s.isOpen .rx = true ∧ (Engine.rx = .rx → s.worker.pc = .dead) ∧
      [7#8].length < 2 ^ 32 ∧ (s.chan Engine.rx.channel).opd.a0.toNat + 32 + [7#8].length ≤ s.cfg.bufSize .rx := by
  decide

/-! ## Witnesses: TX Framer -/

theorem witness_TxInitCompletes :
    (at_ .tx 0x04010000#32 .txInit {} base).chTx.pc = .txInit ∧
    (let s := under { Config.initial with platformOkTx := false } base
     s.openTx = false ∧ s.cfg.platformOkTx = false) ∧
    (let s := under { Config.initial with mapOkTx := false } base
     s.openTx = false ∧ s.cfg.platformOkTx = true ∧ s.cfg.mapOkTx = false) ∧
    (ready.openTx = true ∨ ready.cfg.platformOkTx = true ∧ ready.cfg.mapOkTx = true) := by
  decide

theorem witness_TxCloseCompletes :
    (at_ .tx 0x04040000#32 .tcl1 {} base).chTx.pc = .tcl1 ∧ base.openTx = false ∧ ready.openTx = true := by decide

/-- The operand at both ends of the range, and just outside them. -/
theorem witness_TxSetMtuCompletes :
    (at_ .tx 0x04050000#32 .txSetMtu { a0 := 64#32 } ready).chTx.pc = .txSetMtu ∧ base.txInited = false ∧
    ready.txInited = true ∧ ready.cfg.wf = true ∧
    ([0#32, 63#32, 64#32, 1024#32, 1025#32].map fun c => normMtu ready.cfg c) = [976, 976, 64, 1024, 976] := by
  decide

theorem witness_TxResetCompletes :
    (at_ .tx 0x04020000#32 .tr1 {} ready).chTx.pc = .tr1 ∧ base.txInited = false ∧ ready.txInited = true := by decide

theorem witness_TxWriteChecksAndPlans :
    (let s := at_ .tx 0x04030000#32 .tw1 {} base
     s.chTx.pc = .tw1 ∧ (s.txInited = false ∨ s.openTx = false)) ∧
    (let s := at_ .tx 0x04030000#32 .tw1 {} ready
     s.txInited = true ∧ s.openTx = true ∧ s32 s.chTx.opd.a1 ≤ 0) ∧
    (let s := at_ .tx 0x04030000#32 .tw1 { a0 := 65000#32, a1 := 537#32 } ready
     0 < s32 s.chTx.opd.a1 ∧ s.cfg.hostMemSize < s.chTx.opd.a0.toNat + s.chTx.opd.a1.toNat) ∧
    (let s := at_ .tx 0x04030000#32 .tw1 { a0 := 65000#32, a1 := 536#32 } ready
     0 < s32 s.chTx.opd.a1 ∧ s.chTx.opd.a0.toNat + s.chTx.opd.a1.toNat ≤ s.cfg.hostMemSize) ∧
    (let s := withLoc .tx { n := 2929 } (at_ .tx 0x04030000#32 .tw2 {} ready)
     let m := normMtu s.cfg s.cfgMtu
     s.chTx.pc = .tw2 ∧ s.cfg.bufSizeTx ≤ ceilDiv s.chTx.loc.n m * (32 + pad8 m + s.cfg.resvPad)) ∧
    (let s := withLoc .tx { n := 2928 } (at_ .tx 0x04030000#32 .tw2 {} ready)
     let m := normMtu s.cfg s.cfgMtu
     ceilDiv s.chTx.loc.n m * (32 + pad8 m + s.cfg.resvPad) < s.cfg.bufSizeTx ∧ s.cfg.wf = true ∧ 0 < s.chTx.loc.n ∧
       ceilDiv s.chTx.loc.n m - 1 < ceilDiv s.chTx.loc.n m) := by
  decide

/-- TX.WRITE of 600 bytes at MTU 256 at a label, at frame `i`. -/
def framing (l : Label) (i : Nat) : State :=
  withLoc .tx { n := 600, m := 256, nf := 3, pid := 1#32, i := i, off := i * 304 }
    (at_ .tx 0x04030000#32 l { a1 := 600#32 } { ready with cfgMtu := 256#32, packId := 1#32 })

theorem framing_in_range : (framing .tsEnc 0).packetInRange (framing .tsEnc 0).chTx.loc := by
  refine ⟨?_, ?_, ?_, ?_, ?_, ?_⟩ <;> decide

theorem witness_TxStagedPacketLayout :
    let s := framing .tsEnc 0
    ((s.cfg.wf = true ∧ s.chTx.pc = .tsEnc) ∧ s.packetInRange s.chTx.loc ∧ s.chTx.loc.i = 0) ∧
      (framing (.tsFlush .d1) 3).chTx.pc = .tsFlush .d1 :=
  ⟨⟨by decide, framing_in_range, rfl⟩, rfl⟩

theorem witness_TxBackpressureSteps :
    (framing .tbEnc 2).chTx.pc = .tbEnc ∧ (framing (.tbFlush .back) 1).chTx.pc = .tbFlush .back ∧
    (framing (.tbFlush .d1) 1).chTx.pc = .tbFlush .d1 ∧ (framing (.tbEobf .d12) 3).chTx.pc = .tbEobf .d12 ∧
    (framing .tbThr 2).chTx.pc = .tbThr ∧
    (let s := { framing .tbPause 2 with pick := .expire, timeMs := 10 }
     s.chTx.pc = .tbPause ∧ s.pick = .expire ∧ s.chTx.loc.t0 + s.cfg.bpPauseMs ≤ s.timeMs) ∧
    (let s := { framing .tbPause 2 with timeMs := 9 }
     s.timeMs < s.chTx.loc.t0 + s.cfg.bpPauseMs ∧ s.cfg.timeAbstract = false) ∧
    (framing .tbEob 3).chTx.pc = .tbEob ∧ (framing (.tsFlush .back) 3).chTx.pc = .tsFlush .back ∧
    (framing (.tbEobf .back) 3).chTx.pc = .tbEobf .back ∧
    (let s := under { Config.initial with busMayFail := true } { framing (.tbEobf .wp3) 3 with pick := .fail }
     s.chTx.pc = .tbEobf .wp3 ∧ s.pick = .fail ∧ s.cfg.busMayFail = true) ∧
    (framing .twDone 3).chTx.pc = .twDone := by
  decide

/-! ## Witnesses: RX Reassembler -/

/-- An RX command at a label. -/
def rxAt (w : U32) (l : Label) : State := at_ .rx w l {} ready

theorem witness_RxInitCompletes :
    ((alive (rxAt 0x05010000#32 .rxInit)).chRx.pc = .rxInit ∧ (alive (rxAt 0x05010000#32 .rxInit)).worker.pc ≠ .dead) ∧
    (let s := under { Config.initial with platformOkRx := false } base
     s.worker.pc = .dead ∧ s.openRx = false ∧ s.cfg.platformOkRx = false) ∧
    (let s := under { Config.initial with mapOkRx := false } base
     s.openRx = false ∧ s.cfg.platformOkRx = true ∧ s.cfg.mapOkRx = false) ∧
    (ready.worker.pc = .dead ∧ (ready.openRx = true ∨ ready.cfg.platformOkRx = true ∧ ready.cfg.mapOkRx = true)) := by
  decide

theorem witness_RxCloseCompletes :
    (let s := at_ .rx 0x05070000#32 .rc1 {} base
     s.chRx.pc = .rc1 ∧ s.rx.inited = false ∧ s.openRx = false) ∧
    ((alive (rxAt 0x05070000#32 .rc3)).chRx.pc = .rc3 ∧ (alive (rxAt 0x05070000#32 .rc3)).worker.pc ≠ .dead) ∧
    ((rxAt 0x05070000#32 .rc3).chRx.pc = .rc3 ∧ (rxAt 0x05070000#32 .rc3).worker.pc = .dead) ∧
    (let s := alive { rxAt 0x05070000#32 .rc1 with openRx := false }
     s.chRx.pc = .rc1 ∧ (s.rx.inited = true ∨ s.openRx = true)) ∧
    ([Label.rc2, .rc4, .rc5, .rc6, .rc7].all fun l => decide ((rxAt 0x05070000#32 l).chRx.pc = l)) = true ∧
    (let s := rxAt 0x05070000#32 .rc1
     s.chRx.pc = .rc1 ∧ s.worker.pc = .dead ∧ (s.rx.inited = true ∨ s.openRx = true) ∧ s.openRx = true) ∧
    (let s := { rxAt 0x05070000#32 .rc1 with openRx := false }
     (s.rx.inited = true ∨ s.openRx = true) ∧ s.openRx = false) := by
  decide

theorem witness_RxResetConfigures :
    (rxAt 0x05020000#32 .rr1).chRx.pc = .rr1 ∧ base.rx.inited = false ∧
    ((alive ready).rx.inited = true ∧ (alive ready).worker.pc ≠ .dead) ∧
    (ready.rx.inited = true ∧ ready.worker.pc = .dead ∧ ready.cfg.frCoefCount ≤ 4) ∧
    ([Label.rr2, .rr3, .rr4, .rr5, .rr6, .rr7, .rr8, .rr10, .rr11, .rr12].all fun l =>
      decide ((rxAt 0x05020000#32 l).chRx.pc = l)) = true ∧
    (let s := withLoc .rx { k := 3 } (rxAt 0x05020000#32 .rr9)
     s.chRx.pc = .rr9 ∧ s.chRx.loc.k = (3 : Fin 4).val) := by
  decide

theorem witness_RxStartStopComplete :
    (rxAt 0x05030000#32 .rxStart).chRx.pc = .rxStart ∧ (rxAt 0x05040000#32 .rp1).chRx.pc = .rp1 ∧
    base.rx.inited = false ∧ ready.rx.inited = true := by
  decide

/-- RX.RECEIVE at a label, with a count, a code of the worker, and a first header of three frames. -/
def receiving (l : Label) (count : U32) (code : Status) : State :=
  { rxAt 0x05050000#32 l with rx := { ready.rx with
      configured := true, count := count, workerRet := code.code, hdr0 := { zeroHdr with numFrames := 3#32 } } }

/-- Each clause of the consumer, at the boundary of its count or its time. -/
theorem witness_RxReceiveSteps :
    ((receiving .rv1 0#32 .ok).chRx.pc = .rv1 ∧ (base.rx.inited = false ∨ base.openRx = false) ∧
      ready.rx.configured = false ∧ (receiving .rv1 0#32 .ok).rx.configured = true) ∧
    ((receiving .rv2 0#32 .ok).chRx.pc = .rv2 ∧ (receiving .rv3 0#32 .ok).chRx.pc = .rv3 ∧
      (receiving .rv4 0#32 .ok).chRx.pc = .rv4) ∧
    (let s := receiving .rv5 1#32 .ok
     s.chRx.pc = .rv5 ∧ s.pick = .wake ∧ (1 ≤ s.rx.count.toNat ∨ s.rx.workerRet ≠ 0#32)) ∧
    (let s := { withLoc .rx { deadline := 60000 } (receiving .rv5 0#32 .ok) with pick := .expire, timeMs := 60000 }
     s.chRx.pc = .rv5 ∧ s.pick = .expire ∧ s.rx.count = 0#32 ∧ s.rx.workerRet = 0#32 ∧
       s.chRx.loc.deadline ≤ s.timeMs) ∧
    (let s := { withLoc .rx { deadline := 60000 } (receiving .rv5 0#32 .ok) with timeMs := 59999 }
     s.timeMs < s.chRx.loc.deadline ∧ s.cfg.timeAbstract = false) ∧
    ((receiving .rv6 0#32 .rxTimeout).chRx.pc = .rv6) ∧
    (let s := receiving .rv8 3#32 .rxOverflow
     s.chRx.pc = .rv8 ∧ s.rx.hdr0.numFrames.toNat ≤ s.rx.count.toNat) ∧
    (let s := receiving .rv8 2#32 .rxOverflow
     s.rx.count.toNat < s.rx.hdr0.numFrames.toNat ∧ s.rx.workerRet ≠ 0#32) ∧
    (let s := receiving .rv8 2#32 .ok
     s.rx.count.toNat < s.rx.hdr0.numFrames.toNat ∧ s.rx.workerRet = 0#32) ∧
    (let s := withLoc .rx { c0 := 1#32 } (receiving .rv9 2#32 .ok)
     s.chRx.pc = .rv9 ∧ s.pick = .wake ∧ (s.chRx.loc.c0.toNat < s.rx.count.toNat ∨ s.rx.workerRet ≠ 0#32)) ∧
    (let s := { withLoc .rx { c0 := 2#32, deadline := 5 } (receiving .rv9 2#32 .ok) with pick := .expire, timeMs := 5 }
     s.pick = .expire ∧ s.rx.count.toNat ≤ s.chRx.loc.c0.toNat ∧ s.rx.workerRet = 0#32 ∧
       s.chRx.loc.deadline ≤ s.timeMs) ∧
    (let s := { withLoc .rx { c0 := 2#32, deadline := 5 } (receiving .rv9 2#32 .ok) with timeMs := 4 }
     s.rx.count.toNat ≤ s.chRx.loc.c0.toNat ∧ s.timeMs < s.chRx.loc.deadline ∧ s.cfg.timeAbstract = false) ∧
    ((receiving .rv10 3#32 .ok).chRx.pc = .rv10) := by
  decide

theorem witness_FirstHeaderValidated : (receiving .rv7 1#32 .ok).chRx.pc = .rv7 := by decide

theorem witness_RxReadCompletes :
    ((rxAt 0x05060000#32 .rd1).chRx.pc = .rd1 ∧ (base.rx.inited = false ∨ base.openRx = false) ∧
      ready.rx.inited = true ∧ ready.openRx = true) ∧
    ((rxAt 0x05060000#32 .rd2).chRx.pc = .rd2) ∧
    (let s := at_ .rx 0x05060000#32 .rd3 { a0 := 65000#32, a1 := 537#32 } ready
     s.chRx.pc = .rd3 ∧ s.cfg.hostMemSize < s.chRx.opd.a0.toNat + s.chRx.opd.a1.toNat) ∧
    (let s := at_ .rx 0x05060000#32 .rd3 { a0 := 65000#32, a1 := 536#32 } ready
     s.chRx.pc = .rd3 ∧ s.chRx.opd.a0.toNat + s.chRx.opd.a1.toNat ≤ s.cfg.hostMemSize) := by
  decide

/-- RX.READ at its entry step, with entry 0 at an offset, its payload size, and the room in the destination. -/
def entry (o : Nat) (fs room : U32) : State :=
  (at_ .rx 0x05060000#32 .rd4 { a0 := 0#32, a1 := room }
    { ready with rx := { ready.rx with count := 1#32, table := [(0, u32 o)] } }).writeMem (.buf .rx) o
      (List.replicate 24 0#8 ++ le32bytes fs ++ List.replicate 4 0#8)

/-- The header past the end; the payload past the end; the room one byte short; and all three just fitting. -/
theorem witness_RxReadEntryStep :
    (let s := entry 4065 0#32 0#32
     s.chRx.pc = .rd4 ∧ s.cfg.bufSizeRx < (s.tableAt s.chRx.loc.j).toNat + 32) ∧
    (let s := entry 4062 3#32 3#32
     s.chRx.pc = .rd4 ∧
       s.cfg.bufSizeRx < 4062 + 32 + (hdrOf (s.readMem (.buf .rx) (s.tableAt s.chRx.loc.j).toNat 32)).frameSz.toNat) ∧
    (let s := entry 4062 2#32 1#32
     s.chRx.opd.a1.toNat < s.chRx.loc.cur + (hdrOf (s.readMem (.buf .rx) 4062 32)).frameSz.toNat) ∧
    (let s := entry 4062 2#32 2#32
     4062 + 32 + (hdrOf (s.readMem (.buf .rx) 4062 32)).frameSz.toNat ≤ s.cfg.bufSizeRx ∧
       s.chRx.loc.cur + (hdrOf (s.readMem (.buf .rx) 4062 32)).frameSz.toNat ≤ s.chRx.opd.a1.toNat) := by
  decide +kernel

/-- A worker at a label, with what its wait returned, in a cycle with a count and a number of timeouts. -/
def working (l : WLabel) (r : IrqResult) (count : U32) (tmo : Nat) : State :=
  { framed with
    worker := { pc := l, r := r, len := 304#32 }
    rx := { framed.rx with count := count, tmoCount := tmo, done := false } }

/-- Each clause of the worker's steps. -/
theorem witness_WorkerSteps :
    (ready.worker.pc = .dead ∧ (working .w1 .none 0#32 0).worker.pc = .w1 ∧ (working .w2 .none 0#32 0).worker.pc = .w2) ∧
    (let s := (working .w3 .none 0#32 0).setLine .mrx { masked := true, latched := true }
     s.worker.pc = .w3 ∧ s.pick = .wake ∧ (s.line .mrx).latched = true) ∧
    (let s := { working .w3 .none 0#32 0 with pick := .expire, timeMs := 1000 }
     s.worker.pc = .w3 ∧ s.pick = .expire ∧ (s.line .mrx).latched = false ∧
       s.worker.t0 + s.cfg.rxIrqTimeoutMs ≤ s.timeMs) ∧
    (let s := under { Config.initial with busMayFail := true } { working .w3 .none 0#32 0 with pick := .fail }
     s.worker.pc = .w3 ∧ s.pick = .fail ∧ s.cfg.busMayFail = true) ∧
    (let s := { working .w4 .error 0#32 0 with rx := { ready.rx with done := true } }
     s.worker.pc = .w4 ∧ s.rx.done = true) ∧
    (let s := { working .w8 .pending 0#32 0 with rx := { ready.rx with done := true } }
     s.worker.pc = .w8 ∧ s.rx.done = true) ∧
    ((working .w4 .error 0#32 0).worker.pc = .w4 ∧
      (working .w4 .error 0#32 0).rx.done = false ∧ (working .w4 .error 0#32 0).worker.r = .error) ∧
    ((working .w4 .none 1#32 0).worker.r = .none ∧ (working .w4 .none 1#32 0).rx.count ≠ 0#32) ∧
    ((working .w4 .none 0#32 2).rx.count = 0#32 ∧ (working .w4 .none 0#32 2).rx.tmoCount < Config.initial.rxIrqRetries) ∧
    (Config.initial.rxIrqRetries ≤ (working .w4 .none 0#32 3).rx.tmoCount) ∧
    ((working .w4 .pending 0#32 0).worker.r = .pending) ∧
    (let s := { working .w5 .pending 0#32 0 with mrx := { rxq := [(0xFFFFFFFF#32, [])] } }
     s.worker.pc = .w5 ∧ (s.regRead (.mrx .payloadLen) = 0#32 ∨ s.regRead (.mrx .payloadLen) ∈ s.cfg.rxLenInvalid)) ∧
    (let s := working .w5 .pending 0#32 0
     s.regRead (.mrx .payloadLen) ≠ 0#32 ∧ s.regRead (.mrx .payloadLen) ∉ s.cfg.rxLenInvalid) ∧
    ((working .w6 .pending 85#32 0).worker.pc = .w6 ∧
      (working .w6 .pending 85#32 0).rx.count.toNat = Config.initial.tableCap ∧
      (working .w6 .pending 84#32 0).rx.count.toNat ≠ Config.initial.tableCap) ∧
    (let s := { working (.w7 .d1) .pending 1#32 0 with worker := { pc := .w7 .d1, dma := { off := 3793, size := 304#32 } } }
     s.worker.pc = .w7 .d1 ∧ s.openRx = true ∧
       (s32 s.worker.dma.size < 0 ∨ (s.cfg.bufSizeRx : Int) < (s.worker.dma.off : Int) + s32 s.worker.dma.size)) ∧
    (let s := under { Config.initial with busMayFail := true } { working (.w7 .wp3) .pending 1#32 0 with pick := .fail }
     s.worker.pc = .w7 .wp3 ∧ s.pick = .fail ∧ s.cfg.busMayFail = true) ∧
    ((working (.w7 .back) .pending 1#32 0).worker.pc = .w7 .back ∧ (working .w8 .pending 1#32 0).worker.pc = .w8 ∧
      (working .w8 .pending 1#32 0).rx.done = false ∧ (working .wx .pending 1#32 0).worker.pc = .wx) := by
  decide

theorem witness_PhaseKeepsFollowingConsumer : mid.Labelled ∧ mid.PhaseFollowsConsumer ∧ ∃ t, step mid = .next t :=
  ⟨mid_labelled, mid_phase_follows, mid_steps⟩

theorem witness_WorkerKeepsEngine : mid.WorkerOwns ∧ (∃ t, step mid = .next t) ∧ mid.WorkerHealthy :=
  ⟨mid_worker_owns, mid_steps, mid_worker_healthy⟩

theorem witness_TableStaysOrdered : mid.WorkerOwns ∧ mid.TableOrdered ∧ ∃ t, step mid = .next t :=
  ⟨mid_worker_owns, mid_table_ordered, mid_steps⟩

/-! ## Witnesses: the whole machine -/

theorem witness_MemoryStaysCanonical : mid.Canonical ∧ ∃ t, step mid = .next t := ⟨mid_canonical, mid_steps⟩

theorem witness_BytesStayInBounds : mid.BytesInBounds ∧ ∃ t, step mid = .next t := ⟨mid_bytes_in_bounds, mid_steps⟩

theorem witness_FaultsStayAndLogGrows :
    Move.clock ≠ .reset ∧ { mid with faultDmaWild := true, faultBufRace := true }.faultDmaWild = true ∧
    (∃ t, act .clock { mid with faultDmaWild := true, faultBufRace := true } = .next t) ∧
    { mid with faultBufRace := true }.faultBufRace = true :=
  ⟨by decide, rfl, ⟨_, rfl⟩, rfl⟩

theorem witness_CommandWritesOnlyItsOwn : ∃ t, exec .txWrite (framing .tsEnc 0) = .next t := ⟨_, rfl⟩

/-- A step that stores 304 bytes from 304 on, an address on each side of them, and a step that stores nothing. -/
theorem witness_CommandStoresOnlyInRange :
    (∃ t, exec .txWrite (framing .tbEnc 1) = .next t) ∧
    (∀ o n, storeRange .txWrite (framing .tbEnc 1) = some (.buf .tx, o, n) → 303 < o ∨ o + n ≤ 303) ∧
    (∀ o n, storeRange .txWrite (framing .tbEnc 1) = some (.buf .tx, o, n) → 608 < o ∨ o + n ≤ 608) ∧
    ∀ o n, storeRange .txWrite (framing .twDone 3) = some (.buf .tx, o, n) → 0 < o ∨ o + n ≤ 0 := by
  have h : storeRange .txWrite (framing .tbEnc 1) = some (.buf .tx, 304, 304) := by decide
  refine ⟨⟨_, rfl⟩, fun o n e => ?_, fun o n e => ?_, fun o n e => by cases e⟩ <;>
    · rw [h] at e
      cases e
      omega

end Sys2Proof.Tests
end

section
/-! SUPPORT. What every step of an agent leaves of the channels, of the sticky faults, of the log, of the time and of the
configuration: one rule per shared operation, one lemma per command. -/

namespace Sys2Proof.Machine

/-! ## Faults, log, time and configuration (R20, R170, R920) -/

/-- `t` keeps the sticky faults, the time and the configuration of `s`, and its log begins with that of `s`. -/
structure Grows (s t : State) : Prop where
  wild : s.faultDmaWild = true → t.faultDmaWild = true
  race : s.faultBufRace = true → t.faultBufRace = true
  log : ∃ es, t.log = s.log ++ es
  timeMs : t.timeMs = s.timeMs
  cfg : t.cfg = s.cfg

theorem Grows.trans {s t u : State} (h : Grows s t) (h' : Grows t u) : Grows s u where
  wild hs := h'.wild (h.wild hs)
  race hs := h'.race (h.race hs)
  log := by
    obtain ⟨es, hes⟩ := h.log
    obtain ⟨fs, hfs⟩ := h'.log
    exact ⟨es ++ fs, by rw [hfs, hes, List.append_assoc]⟩
  timeMs := h'.timeMs.trans h.timeMs
  cfg := h'.cfg.trans h.cfg

theorem grows_setChan (c : Channel) (x : Chan) (s : State) : Grows s (s.setChan c x) where
  wild h := by simpa using h
  race h := by simpa using h
  log := ⟨[], by simp⟩
  timeMs := by simp
  cfg := by simp

/-! ## Updates beside the channels -/

/-- `t` has the channels of `s`, and grows from it: what the parts of a step do that do not move the channel. -/
structure KeepsChannels (s t : State) : Prop where
  grows : Grows s t
  chan : ∀ c, t.chan c = s.chan c

/-- An update of other fields: the state after it is itself with those eight parts of the state before. -/
theorem KeepsChannels.of_frame {s t : State}
    (h : t = { t with
      chTx := s.chTx, chRx := s.chRx, chBus := s.chBus, faultDmaWild := s.faultDmaWild,
      faultBufRace := s.faultBufRace, log := s.log, timeMs := s.timeMs, cfg := s.cfg }) : KeepsChannels s t := by
  rw [h]
  exact ⟨⟨id, id, ⟨[], (List.append_nil _).symm⟩, rfl, rfl⟩, fun c => by cases c <;> rfl⟩

theorem KeepsChannels.trans {s t u : State} (h : KeepsChannels s t) (h' : KeepsChannels t u) : KeepsChannels s u :=
  ⟨h.grows.trans h'.grows, fun c => (h'.chan c).trans (h.chan c)⟩

theorem KeepsChannels.refl (s : State) : KeepsChannels s s := .of_frame rfl

theorem keepsChannels_latch (s : State) : KeepsChannels s s.latch := .of_frame rfl

theorem keepsChannels_pick (p : Pick) (s : State) : KeepsChannels s { s with pick := p } := .of_frame rfl

theorem keepsChannels_regWrite (r : Reg) (v : U32) (s : State) : KeepsChannels s (s.regWrite r v) := by
  cases r with
  | dmac e k => cases e <;> exact .of_frame rfl
  | mtx k => exact .of_frame rfl
  | mrx k => exact .of_frame rfl

theorem keepsChannels_setLine (sp : Space) (x : Line) (s : State) : KeepsChannels s (s.setLine sp x) := .of_frame rfl

theorem keepsChannels_irqMask (sp : Space) (s : State) : KeepsChannels s (s.irqMask sp) := keepsChannels_setLine _ _ _

theorem keepsChannels_irqUnmask (sp : Space) (s : State) : KeepsChannels s (s.irqUnmask sp) :=
  (keepsChannels_setLine _ _ _).trans (keepsChannels_latch _)

theorem keepsChannels_setOpen (e : Engine) (b : Bool) (s : State) : KeepsChannels s (s.setOpen e b) := by
  cases e <;> exact .of_frame rfl

theorem keepsChannels_setDmac (e : Engine) (d : Dmac) (s : State) : KeepsChannels s (s.setDmac e d) := by
  cases e <;> exact .of_frame rfl

theorem keepsChannels_writeMem (z : ByteSpace) (a : Nat) (bs : List Byte) (s : State) :
    KeepsChannels s (s.writeMem z a bs) := by
  cases z with
  | buf e => cases e <;> exact .of_frame rfl
  | hostMem => exact .of_frame rfl

/-- A recorded race stays recorded. -/
theorem keepsChannels_noteRace (b : Bool) (s : State) : KeepsChannels s (s.noteRace b) :=
  ⟨⟨id, fun h => by simp [State.noteRace, h], ⟨[], by simp [State.noteRace]⟩, rfl, rfl⟩, fun c => by cases c <;> rfl⟩

theorem keepsChannels_bufWrite (e : Engine) (o : Nat) (bs : List Byte) (s : State) :
    KeepsChannels s (s.bufWrite e o bs) :=
  (keepsChannels_noteRace _ s).trans (keepsChannels_writeMem _ _ _ _)

theorem keepsChannels_bufReadNote (e : Engine) (o n : Nat) (s : State) : KeepsChannels s (s.bufReadNote e o n) := by
  cases e
  case tx => exact .refl s
  case rx => exact keepsChannels_noteRace _ s

theorem keepsChannels_logEvent (v : Event) (s : State) : KeepsChannels s (s.logEvent v) :=
  ⟨⟨id, id, ⟨[v], rfl⟩, rfl, rfl⟩, fun c => by cases c <;> rfl⟩

theorem keepsChannels_rx (x : Reassembler) (s : State) : KeepsChannels s { s with rx := x } := .of_frame rfl

theorem keepsChannels_openEngine {e : Engine} {s t : State} {st : Status} (h : s.openEngine e = (st, t)) :
    KeepsChannels s t := by
  unfold State.openEngine at h
  split at h
  · cases h; exact .refl s
  · split at h
    · cases h; exact .refl s
    · split at h
      · cases h; exact .refl s
      · cases h; exact keepsChannels_setOpen _ _ _

theorem keepsChannels_touchesDma {e : Engine} {s t : State} (h : touchesDma e s t) : KeepsChannels s t := by
  obtain ⟨d, ls, rfl⟩ := h.frame
  exact (keepsChannels_setDmac e d s).trans (.of_frame rfl)

theorem keepsChannels_irqWait {s t : State} {sp : Space} {t0 T : Nat} {r : IrqResult}
    (h : s.irqWait sp t0 T = some (r, t)) : KeepsChannels s t := by
  rcases State.irqWait_eq_some h with ⟨-, -, -, rfl⟩ | ⟨-, -, -, rfl⟩ | ⟨-, -, -, rfl⟩
  · exact keepsChannels_setLine _ _ _
  · exact .refl _
  · exact .refl _

/-- A step of a DMA procedure leaves the channels to its caller. -/
theorem keepsChannels_dmaStep_go {e : Engine} {l l' : DmaLabel} {d d' : DmaLocals} {s t : State}
    (h : dmaStep e l d s = .go l' d' t) : KeepsChannels s t := by
  have hk := dmaStep_keeps e l d s
  rw [h] at hk
  exact keepsChannels_touchesDma hk.1

theorem keepsChannels_dmaStep_ret {e : Engine} {l : DmaLabel} {d : DmaLocals} {s t : State} {st : Status} {v : U32}
    (h : dmaStep e l d s = .ret st v t) : KeepsChannels s t := by
  have hk := dmaStep_keeps e l d s
  rw [h] at hk
  exact keepsChannels_touchesDma hk

/-! ## The worker, the controllers and the RX IP core -/

theorem keepsChannels_wgoto (l : WLabel) (s : State) : KeepsChannels s (s.wgoto l) := .of_frame rfl

theorem keepsChannels_fatal (st : Status) (s : State) : KeepsChannels s (s.fatal st) := .of_frame rfl

theorem keepsChannels_wWait (s : State) : KeepsChannels s (wWait s) := by
  unfold wWait
  split
  · exact .refl s
  · exact (keepsChannels_irqWait ‹_›).trans (.of_frame rfl)

theorem keepsChannels_wTimeout (s : State) : KeepsChannels s (wTimeout s) := by
  unfold wTimeout
  split
  · dsimp only
    split
    · exact (keepsChannels_rx _ s).trans (keepsChannels_fatal _ _)
    · exact (keepsChannels_rx _ s).trans (keepsChannels_wgoto _ _)
  · exact keepsChannels_wgoto _ s

theorem keepsChannels_wWoke (s : State) : KeepsChannels s (wWoke s) := by
  unfold wWoke
  split
  · exact keepsChannels_wgoto _ s
  · split
    · exact keepsChannels_fatal _ s
    · exact keepsChannels_wTimeout s
    · exact keepsChannels_wgoto _ s

theorem keepsChannels_wLength (s : State) : KeepsChannels s (wLength s) := by
  unfold wLength
  dsimp only
  split
  · exact keepsChannels_fatal _ s
  · exact .of_frame rfl

theorem keepsChannels_wPlace (s : State) : KeepsChannels s (wPlace s) := by
  unfold wPlace
  split
  · exact keepsChannels_fatal _ s
  · exact .of_frame rfl

theorem keepsChannels_wRead (l : DmaLabel) (s : State) : KeepsChannels s (wRead l s) := by
  unfold wRead
  split
  · exact (keepsChannels_dmaStep_go ‹_›).trans (.of_frame rfl)
  · exact (keepsChannels_dmaStep_ret ‹_›).trans (keepsChannels_wgoto _ _)
  · exact (keepsChannels_dmaStep_ret ‹_›).trans (keepsChannels_fatal _ _)
  · exact (keepsChannels_dmaStep_ret ‹_›).trans (keepsChannels_fatal _ _)
  · exact .refl s

theorem keepsChannels_wPublish (s : State) : KeepsChannels s (wPublish s) := by
  unfold wPublish
  split
  · exact keepsChannels_wgoto _ s
  · exact (keepsChannels_rx _ s).trans (keepsChannels_wgoto _ _)

/-- A step of the worker moves no channel (R830). -/
theorem keepsChannels_workerStep (s : State) : KeepsChannels s (workerStep s) := by
  unfold workerStep
  split
  · exact .refl s
  · split
    · exact keepsChannels_wgoto _ s
    · exact keepsChannels_wgoto _ s
  · exact (keepsChannels_irqUnmask .mrx s).trans (.of_frame rfl)
  · exact keepsChannels_wWait s
  · exact keepsChannels_wWoke s
  · exact keepsChannels_wLength s
  · exact keepsChannels_wPlace s
  · exact keepsChannels_wRead _ s
  · exact keepsChannels_wPublish s
  · exact (keepsChannels_irqMask .mrx s).trans (keepsChannels_wgoto _ _)

theorem keepsChannels_scatter (ranges : List (Nat × Nat)) (bs : List Byte) (s : State) :
    KeepsChannels s (s.scatter ranges bs) := by
  rw [State.scatter_frame]
  exact .of_frame rfl

theorem keepsChannels_completeTx (r : DmaRec) (rest : List DmaRec) (s : State) :
    KeepsChannels s (completeTx r rest s) :=
  (keepsChannels_logEvent _ s).trans (.of_frame rfl)

theorem keepsChannels_completeRx (r : DmaRec) (rest : List DmaRec) (f : List Byte) (tail : List (U32 × List Byte))
    (s : State) : KeepsChannels s (completeRx r rest f tail s) := by
  have hd : KeepsChannels s (s.drawBytes (r.len - f.length)).2 := .of_frame rfl
  exact (hd.trans (keepsChannels_scatter r.ranges _ _)).trans (.of_frame rfl)

/-- A dropped transfer sets its fault and clears none (R202). -/
theorem keepsChannels_dropWild (e : Engine) (rest : List DmaRec) (s : State) : KeepsChannels s (dropWild e rest s) :=
  (keepsChannels_setDmac e { s.dmac e with queue := rest } s).trans
    (⟨⟨fun _ => rfl, id, ⟨[], (List.append_nil _).symm⟩, rfl, rfl⟩, fun c => by cases c <;> rfl⟩)

/-- A step of a DMA controller moves no channel (R540). -/
theorem keepsChannels_dmacStep (e : Engine) (s : State) : KeepsChannels s (dmacStep e s) := by
  unfold dmacStep
  dsimp only
  split
  · exact .refl s
  · split
    · exact .refl s
    · split
      · exact keepsChannels_setDmac _ _ s
      · cases e
        case tx =>
          dsimp only
          split
          · exact .refl s
          · split
            · exact keepsChannels_completeTx _ _ s
            · exact keepsChannels_dropWild _ _ s
        case rx =>
          dsimp only
          split
          · exact .refl s
          · split
            · exact keepsChannels_completeRx _ _ _ _ s
            · exact keepsChannels_dropWild _ _ s

theorem keepsChannels_modemRxStep (len : U32) (f : List Byte) (s : State) :
    KeepsChannels s (modemRxStep len f s) := by
  unfold modemRxStep
  split
  · exact .of_frame rfl
  · exact .refl s

end Sys2Proof.Machine
end

section
/-! SUPPORT. What one step of a command is: it runs at a label of the command, moves its own channel to another one or to
idle, and leaves the other channels alone (R14, R18, R19); one lemma per command, along its labels. -/

namespace Sys2Proof.Machine

/-- One step of command `i`: its label is one of `i`; the channel keeps its word and either ends the command or goes on at a
label of `i`; the other channels stay. -/
structure StepsCommand (i : Instr) (s t : State) : Prop where
  grows : Grows s t
  others : ∀ c, c ≠ i.channel → t.chan c = s.chan c
  cmd : (t.chan i.channel).cmd = (s.chan i.channel).cmd
  here : ownLabel i (s.chan i.channel).pc = true
  there : ((t.chan i.channel).busy = false ∧ (t.chan i.channel).pc = .idle) ∨
    ((t.chan i.channel).busy = (s.chan i.channel).busy ∧ ownLabel i (t.chan i.channel).pc = true)

/-- If the answer is a next state, it has the property. -/
def leadsTo (P : State → Prop) : Result → Prop
  | .next t => P t
  | _ => True

theorem leadsTo_of_next {P : State → Prop} {r : Result} {t : State} (h : leadsTo P r) (hr : r = .next t) : P t := by
  subst hr
  exact h

namespace StepsCommand

variable {i : Instr} {s u : State} {l l' : Label} {x : Locals} {st : Status} {vs : List U32}

/-- A step that writes its channel last, beside other parts of the state. -/
theorem setChan {y : Chan} (hpc : (s.chan i.channel).pc = l) (hu : KeepsChannels s u) (here : ownLabel i l = true)
    (cmd : y.cmd = (s.chan i.channel).cmd)
    (there : (y.busy = false ∧ y.pc = .idle) ∨ (y.busy = (s.chan i.channel).busy ∧ ownLabel i y.pc = true)) :
    StepsCommand i s (u.setChan i.channel y) where
  grows := hu.grows.trans (grows_setChan _ _ _)
  others c hc := (State.chan_setChan_other _ _ _ _ hc).trans (hu.chan c)
  cmd := by rw [State.chan_setChan_same, cmd]
  here := by rw [hpc, here]
  there := by rwa [State.chan_setChan_same]

theorem gotoWith (hpc : (s.chan i.channel).pc = l) (hu : KeepsChannels s u) (here : ownLabel i l = true)
    (there : ownLabel i l' = true) : StepsCommand i s (u.gotoWith i.channel l' x) :=
  setChan hpc hu here (by rw [hu.chan]) (.inr ⟨by rw [hu.chan], there⟩)

theorem goto (hpc : (s.chan i.channel).pc = l) (hu : KeepsChannels s u) (here : ownLabel i l = true)
    (there : ownLabel i l' = true) : StepsCommand i s (u.goto i.channel l') :=
  setChan hpc hu here (by rw [hu.chan]) (.inr ⟨by rw [hu.chan], there⟩)

theorem finish (hpc : (s.chan i.channel).pc = l) (hu : KeepsChannels s u) (here : ownLabel i l = true) :
    StepsCommand i s (u.finish i.channel st vs) :=
  setChan hpc hu here (by rw [hu.chan]) (.inl ⟨rfl, rfl⟩)

theorem raise (hpc : (s.chan i.channel).pc = l) (hu : KeepsChannels s u) (here : ownLabel i l = true) :
    StepsCommand i s (u.raise i.channel st) :=
  finish hpc hu here

/-- A wait whose completion is not enabled. -/
theorem stay (hpc : (s.chan i.channel).pc = l) (here : ownLabel i l = true) : StepsCommand i s s :=
  have hl : ownLabel i (s.chan i.channel).pc = true := by rw [hpc, here]
  ⟨(KeepsChannels.refl s).grows, fun _ _ => rfl, rfl, hl, .inr ⟨rfl, hl⟩⟩

end StepsCommand

open StepsCommand (gotoWith goto finish raise stay)

/-! ## BUS commands (R410 to R414) -/

theorem execRegRead_steps (sp : Space) (s : State) : leadsTo (StepsCommand (.regRead sp) s) (execRegRead sp s) := by
  unfold execRegRead
  split
  next hpc =>
    split
    · exact raise hpc (.refl s) rfl
    · exact finish hpc (.refl s) rfl
  · trivial

theorem execRegWrite_steps (sp : Space) (s : State) : leadsTo (StepsCommand (.regWrite sp) s) (execRegWrite sp s) := by
  unfold execRegWrite
  split
  next hpc =>
    split
    · exact raise hpc (.refl s) rfl
    · exact finish hpc (keepsChannels_regWrite _ _ s) rfl
  · trivial

theorem execIrqMask_steps (sp : Space) (s : State) : leadsTo (StepsCommand (.irqMask sp) s) (execIrqMask sp s) := by
  unfold execIrqMask
  split
  next hpc => exact finish hpc (keepsChannels_irqMask _ s) rfl
  · trivial

theorem execIrqUnmask_steps (sp : Space) (s : State) :
    leadsTo (StepsCommand (.irqUnmask sp) s) (execIrqUnmask sp s) := by
  unfold execIrqUnmask
  split
  next hpc => exact finish hpc (keepsChannels_irqUnmask _ s) rfl
  · trivial

theorem execIrqWait_steps (sp : Space) (s : State) : leadsTo (StepsCommand (.irqWait sp) s) (execIrqWait sp s) := by
  unfold execIrqWait
  split
  next hpc =>
    split
    · exact stay hpc rfl
    · exact raise hpc (keepsChannels_irqWait ‹_›) rfl
    · exact finish hpc (keepsChannels_irqWait ‹_›) rfl
    · exact finish hpc (keepsChannels_irqWait ‹_›) rfl
  · trivial

/-! ## DMA commands (R502, R503, R506, R508) -/

theorem execDmaOpen_steps (e : Engine) (s : State) : leadsTo (StepsCommand (.dmaOpen e) s) (execDmaOpen e s) := by
  unfold execDmaOpen
  split
  next hpc =>
    split
    · exact finish hpc (keepsChannels_openEngine ‹_›) rfl
    · exact raise hpc (keepsChannels_openEngine ‹_›) rfl
  · trivial

/-- A step of a DMA procedure as the body of any command that runs one. -/
theorem dmaCommand_steps {i : Instr} {e : Engine} {l : DmaLabel} {s : State} (hc : i.channel = e.channel)
    (hpc : (s.chan i.channel).pc = .dma l) (hi : ∀ k, ownLabel i (.dma k) = true) (cyc cnf : Bool) :
    leadsTo (StepsCommand i s) (dmaCommand e cyc cnf l s) := by
  unfold dmaCommand
  rw [← hc]
  dsimp only
  split
  · exact gotoWith hpc (keepsChannels_dmaStep_go ‹_›) (hi _) (hi _)
  · exact finish hpc (keepsChannels_dmaStep_ret ‹_›) (hi _)
  · exact raise hpc (keepsChannels_dmaStep_ret ‹_›) (hi _)
  · exact stay hpc (hi _)

theorem execDmaWrite_steps (e : Engine) (cyc cnf : Bool) (s : State) :
    leadsTo (StepsCommand (.dmaWrite e cyc cnf) s) (execDmaWrite e cyc cnf s) := by
  unfold execDmaWrite
  split
  next hpc =>
    split
    · exact raise hpc (.refl s) rfl
    · exact dmaCommand_steps (i := .dmaWrite e cyc cnf) rfl hpc (fun _ => rfl) cyc cnf
  · trivial

theorem execDmaRead_steps (e : Engine) (s : State) : leadsTo (StepsCommand (.dmaRead e) s) (execDmaRead e s) := by
  unfold execDmaRead
  split
  next hpc =>
    split
    · exact raise hpc (.refl s) rfl
    · split
      · exact raise hpc (.refl s) rfl
      · exact dmaCommand_steps (i := .dmaRead e) rfl hpc (fun _ => rfl) false true
  · trivial

theorem execDmaClose_steps (e : Engine) (s : State) : leadsTo (StepsCommand (.dmaClose e) s) (execDmaClose e s) := by
  unfold execDmaClose
  split
  next hpc =>
    split
    · exact raise hpc (.refl s) rfl
    · split
      · exact finish hpc (.refl s) rfl
      · exact goto hpc (keepsChannels_regWrite _ _ s) rfl rfl
  next hpc => exact finish hpc ((keepsChannels_irqMask _ s).trans (keepsChannels_setOpen _ _ _)) rfl
  · trivial

/-! ## CODEC commands (R606 to R608) -/

theorem execCodecEncode_steps (e : Engine) (s : State) :
    leadsTo (StepsCommand (.codecEncode e) s) (execCodecEncode e s) := by
  unfold execCodecEncode
  split
  next hpc =>
    unfold encodeFetch
    dsimp only
    split
    · exact raise hpc (.refl s) rfl
    · split
      · exact raise hpc (.refl s) rfl
      · split
        · exact raise hpc (.refl s) rfl
        · exact gotoWith hpc (.refl s) rfl rfl
  next hpc => exact finish hpc (keepsChannels_bufWrite _ _ _ s) rfl
  · trivial

theorem execCodecDecode_steps (e : Engine) (s : State) :
    leadsTo (StepsCommand (.codecDecode e) s) (execCodecDecode e s) := by
  unfold execCodecDecode
  split
  next hpc =>
    unfold decodeFetch
    dsimp only
    split
    · exact raise hpc (.refl s) rfl
    · split
      · exact raise hpc (.refl s) rfl
      · split
        · exact finish hpc (keepsChannels_bufReadNote _ _ _ s) rfl
        · exact gotoWith hpc (keepsChannels_bufReadNote _ _ _ s) rfl rfl
  next hpc => exact finish hpc (keepsChannels_bufReadNote _ _ _ s) rfl
  · trivial

theorem execCodecCrc_steps (e : Engine) (s : State) : leadsTo (StepsCommand (.codecCrc e) s) (execCodecCrc e s) := by
  unfold execCodecCrc
  dsimp only
  split
  next hpc =>
    split
    · exact raise hpc (.refl s) rfl
    · split
      · exact raise hpc (.refl s) rfl
      · exact finish hpc (keepsChannels_bufReadNote _ _ _ s) rfl
  · trivial

/-! ## TX commands (R701 to R705, R720) -/

theorem execTxInit_steps (s : State) : leadsTo (StepsCommand .txInit s) (execTxInit s) := by
  unfold execTxInit
  split
  next hpc =>
    split
    · exact finish hpc ((keepsChannels_openEngine ‹_›).trans (.of_frame rfl)) rfl
    · exact raise hpc (keepsChannels_openEngine ‹_›) rfl
  · trivial

theorem execTxClose_steps (s : State) : leadsTo (StepsCommand .txClose s) (execTxClose s) := by
  unfold execTxClose
  split
  next hpc =>
    split
    · exact goto hpc (keepsChannels_regWrite _ _ s) rfl rfl
    · exact finish hpc (.of_frame rfl) rfl
  next hpc => exact finish hpc ((keepsChannels_irqMask .dtx s).trans (.of_frame rfl)) rfl
  · trivial

theorem execTxSetMtu_steps (s : State) : leadsTo (StepsCommand .txSetMtu s) (execTxSetMtu s) := by
  unfold execTxSetMtu
  split
  next hpc =>
    split
    · exact raise hpc (.refl s) rfl
    · exact finish hpc (.of_frame rfl) rfl
  · trivial

theorem execTxReset_steps (s : State) : leadsTo (StepsCommand .txReset s) (execTxReset s) := by
  unfold execTxReset
  split
  next hpc =>
    split
    · exact raise hpc (.refl s) rfl
    · exact goto hpc (.refl s) rfl rfl
  next hpc => exact goto hpc (keepsChannels_regWrite _ _ s) rfl rfl
  next hpc => exact goto hpc (keepsChannels_regWrite _ _ s) rfl rfl
  next hpc => exact finish hpc (keepsChannels_regWrite _ _ s) rfl
  · trivial

theorem txCheck_steps {s : State} (hpc : s.chTx.pc = .tw1) : StepsCommand .txWrite s (txCheck s) := by
  unfold txCheck
  dsimp only
  split
  · exact raise hpc (.refl s) rfl
  · split
    · exact raise hpc (.refl s) rfl
    · split
      · exact raise hpc (.refl s) rfl
      · exact gotoWith hpc (.refl s) rfl rfl

theorem txPlan_steps {s : State} (hpc : s.chTx.pc = .tw2) : StepsCommand .txWrite s (txPlan s) := by
  unfold txPlan
  dsimp only
  split
  · exact raise hpc (.of_frame rfl) rfl
  · exact gotoWith hpc (.of_frame rfl) rfl (by split <;> rfl)

theorem keepsChannels_txBuild (s : State) : KeepsChannels s (txBuild s) := by
  unfold txBuild
  exact keepsChannels_bufWrite _ _ _ s

theorem txStage_steps {s : State} (hpc : s.chTx.pc = .tsEnc) : StepsCommand .txWrite s (txStage s) := by
  unfold txStage
  dsimp only
  split
  · exact gotoWith hpc (keepsChannels_txBuild s) rfl rfl
  · exact gotoWith hpc (keepsChannels_txBuild s) rfl rfl

/-- What follows a flush goes on at a label of TX.WRITE, whatever label the flush had. -/
theorem txFlushed_steps {s u : State} {l : Label} (hpc : s.chTx.pc = l) (hl : ownLabel .txWrite l = true)
    (hu : KeepsChannels s u) : StepsCommand .txWrite s (txFlushed u) := by
  unfold txFlushed
  dsimp only
  split
  · exact gotoWith hpc hu hl rfl
  · split
    · exact gotoWith hpc hu hl rfl
    · exact gotoWith hpc hu hl rfl

theorem txFlush_steps {s : State} {l : DmaLabel} {mk : DmaLabel → Label} {k : State → State}
    (hpc : s.chTx.pc = mk l) (hmk : ∀ j, ownLabel .txWrite (mk j) = true)
    (hk : ∀ u, KeepsChannels s u → StepsCommand .txWrite s (k u)) : StepsCommand .txWrite s (txFlush mk k l s) := by
  unfold txFlush
  split
  · exact gotoWith hpc (keepsChannels_dmaStep_go ‹_›) (hmk _) (hmk _)
  · exact hk _ (keepsChannels_dmaStep_ret ‹_›)
  · exact raise hpc (keepsChannels_dmaStep_ret ‹_›) (hmk _)
  · exact stay hpc (hmk _)

theorem txPause_steps {s : State} (hpc : s.chTx.pc = .tbPause) : StepsCommand .txWrite s (txPause s) := by
  unfold txPause
  split
  · exact goto hpc (.refl s) rfl rfl
  · exact stay hpc rfl

theorem execTxWrite_steps (s : State) : leadsTo (StepsCommand .txWrite s) (execTxWrite s) := by
  unfold execTxWrite
  split
  next hpc => exact txCheck_steps hpc
  next hpc => exact txPlan_steps hpc
  next hpc => exact txStage_steps hpc
  next hpc => exact txFlush_steps hpc (fun _ => rfl) fun _ hu => goto hpc hu rfl rfl
  next hpc => exact gotoWith hpc (keepsChannels_txBuild s) rfl rfl
  next hpc => exact txFlush_steps hpc (fun _ => rfl) fun _ hu => txFlushed_steps hpc rfl hu
  next hpc => exact gotoWith hpc (keepsChannels_logEvent _ s) rfl rfl
  next hpc => exact txPause_steps hpc
  next hpc => exact gotoWith hpc (keepsChannels_bufWrite _ _ _ s) rfl rfl
  next hpc => exact txFlush_steps hpc (fun _ => rfl) fun _ hu => goto hpc hu rfl rfl
  next hpc => exact finish hpc (.refl s) rfl
  · trivial

/-! ## RX commands (R801 to R805, R810, R820) -/

theorem execRxInit_steps (s : State) : leadsTo (StepsCommand .rxInit s) (execRxInit s) := by
  unfold execRxInit
  split
  next hpc =>
    split
    · exact raise hpc (.refl s) rfl
    · split
      · exact finish hpc ((keepsChannels_openEngine ‹_›).trans (keepsChannels_rx _ _)) rfl
      · exact raise hpc (keepsChannels_openEngine ‹_›) rfl
  · trivial

theorem execRxClose_steps (s : State) : leadsTo (StepsCommand .rxClose s) (execRxClose s) := by
  unfold execRxClose
  split
  next hpc =>
    split
    · exact finish hpc (.refl s) rfl
    · exact goto hpc (.refl s) rfl rfl
  next hpc => exact goto hpc (keepsChannels_rx _ s) rfl rfl
  next hpc =>
    split
    · exact stay hpc rfl
    · exact goto hpc (.refl s) rfl rfl
  next hpc => exact goto hpc (keepsChannels_irqMask _ s) rfl rfl
  next hpc =>
    split
    · exact goto hpc (keepsChannels_regWrite _ _ s) rfl rfl
    · exact goto hpc (.refl s) rfl rfl
  next hpc =>
    split
    · exact goto hpc ((keepsChannels_irqMask _ s).trans (keepsChannels_setOpen _ _ _)) rfl rfl
    · exact goto hpc (.refl s) rfl rfl
  next hpc => exact finish hpc (keepsChannels_rx _ s) rfl
  · trivial

theorem ownLabel_rxCoefLabel (s : State) : ownLabel .rxReset (rxCoefLabel s) = true := by
  unfold rxCoefLabel
  split <;> rfl

theorem rxWriteCoef_steps {s : State} (hpc : s.chRx.pc = .rr9) : StepsCommand .rxReset s (rxWriteCoef s) := by
  unfold rxWriteCoef
  dsimp only
  split
  · exact gotoWith hpc (keepsChannels_regWrite _ _ s) rfl rfl
  · exact goto hpc (keepsChannels_regWrite _ _ s) rfl rfl

theorem execRxReset_steps (s : State) : leadsTo (StepsCommand .rxReset s) (execRxReset s) := by
  unfold execRxReset
  dsimp only
  split
  next hpc =>
    split
    · exact raise hpc (.refl s) rfl
    · split
      · exact raise hpc (.refl s) rfl
      · exact goto hpc (.refl s) rfl rfl
  next hpc => exact goto hpc (keepsChannels_regWrite _ _ s) rfl rfl
  next hpc => exact goto hpc (keepsChannels_regWrite _ _ s) rfl rfl
  next hpc => exact goto hpc (keepsChannels_regWrite _ _ s) rfl rfl
  next hpc => exact goto hpc (keepsChannels_regWrite _ _ s) rfl rfl
  next hpc => exact goto hpc (keepsChannels_regWrite _ _ s) rfl rfl
  next hpc => exact goto hpc (keepsChannels_regWrite _ _ s) rfl rfl
  next hpc => exact gotoWith hpc (keepsChannels_regWrite _ _ s) rfl (ownLabel_rxCoefLabel s)
  next hpc => exact rxWriteCoef_steps hpc
  next hpc => exact goto hpc (keepsChannels_regWrite _ _ s) rfl rfl
  next hpc => exact goto hpc (keepsChannels_regWrite _ _ s) rfl rfl
  next hpc => exact finish hpc (keepsChannels_rx _ s) rfl
  · trivial

theorem execRxStart_steps (s : State) : leadsTo (StepsCommand .rxStart s) (execRxStart s) := by
  unfold execRxStart
  split
  next hpc =>
    split
    · exact raise hpc (.refl s) rfl
    · exact finish hpc (keepsChannels_regWrite _ _ s) rfl
  · trivial

theorem execRxStop_steps (s : State) : leadsTo (StepsCommand .rxStop s) (execRxStop s) := by
  unfold execRxStop
  split
  next hpc =>
    split
    · exact raise hpc (.refl s) rfl
    · exact goto hpc (keepsChannels_regWrite _ _ s) rfl rfl
  next hpc => exact finish hpc (keepsChannels_rx _ s) rfl
  · trivial

/-! ### RX.RECEIVE (R810 to R815) -/

theorem endCycle_steps {s u : State} {l : Label} {ph : RxPhase} {st : Status} {vs : List U32} (hpc : s.chRx.pc = l)
    (hu : KeepsChannels s u) (hl : ownLabel .rxReceive l = true) :
    StepsCommand .rxReceive s (u.endCycle ph st vs) :=
  finish hpc (hu.trans (keepsChannels_rx _ u)) hl

theorem rvCheck_steps {s : State} (hpc : s.chRx.pc = .rv1) : StepsCommand .rxReceive s (rvCheck s) := by
  unfold rvCheck
  split
  · exact raise hpc (.refl s) rfl
  · split
    · exact raise hpc (.refl s) rfl
    · exact goto hpc (.refl s) rfl rfl

theorem rvWait_steps {s : State} {l onWake onExpire : Label} (hpc : s.chRx.pc = l) (p : Bool)
    (hl : ownLabel .rxReceive l = true) (hw : ownLabel .rxReceive onWake = true)
    (he : ownLabel .rxReceive onExpire = true) : StepsCommand .rxReceive s (rvWait p onWake onExpire s) := by
  unfold rvWait
  split
  · split
    · exact goto hpc (.refl s) hl hw
    · exact stay hpc hl
  · split
    · exact goto hpc (.refl s) hl he
    · exact stay hpc hl
  · exact stay hpc hl

theorem rvFirst_steps {s : State} (hpc : s.chRx.pc = .rv6) : StepsCommand .rxReceive s (rvFirst s) := by
  unfold rvFirst
  split
  · exact endCycle_steps hpc (.refl s) rfl
  · exact goto hpc (.refl s) rfl rfl

theorem rvValidate_steps {s : State} (hpc : s.chRx.pc = .rv7) : StepsCommand .rxReceive s (rvValidate s) := by
  unfold rvValidate
  dsimp only
  split
  · exact goto hpc ((keepsChannels_bufReadNote _ _ _ s).trans (keepsChannels_rx _ _)) rfl rfl
  · exact endCycle_steps hpc (keepsChannels_bufReadNote _ _ _ s) rfl

theorem rvLoop_steps {s : State} (hpc : s.chRx.pc = .rv8) : StepsCommand .rxReceive s (rvLoop s) := by
  unfold rvLoop
  split
  · exact endCycle_steps hpc (.refl s) rfl
  · split
    · exact endCycle_steps hpc (.refl s) rfl
    · exact gotoWith hpc (.refl s) rfl rfl

theorem rvLast_steps {s : State} (hpc : s.chRx.pc = .rv10) : StepsCommand .rxReceive s (rvLast s) := by
  unfold rvLast
  split
  · exact endCycle_steps hpc (.refl s) rfl
  · exact endCycle_steps hpc (.refl s) rfl

theorem execRxReceive_steps (s : State) : leadsTo (StepsCommand .rxReceive s) (execRxReceive s) := by
  unfold execRxReceive
  split
  next hpc => exact rvCheck_steps hpc
  next hpc =>
    split
    · exact stay hpc rfl
    · exact goto hpc (.refl s) rfl rfl
  next hpc => exact goto hpc (keepsChannels_rx _ s) rfl rfl
  next hpc => exact gotoWith hpc (.of_frame rfl) rfl rfl
  next hpc => exact rvWait_steps hpc _ rfl rfl rfl
  next hpc => exact rvFirst_steps hpc
  next hpc => exact rvValidate_steps hpc
  next hpc => exact rvLoop_steps hpc
  next hpc => exact rvWait_steps hpc _ rfl rfl rfl
  next hpc => exact rvLast_steps hpc
  · trivial

/-! ### RX.READ (R820 to R822) -/

theorem rdStart_steps {s : State} (hpc : s.chRx.pc = .rd3) : StepsCommand .rxRead s (rdStart s) := by
  unfold rdStart
  dsimp only
  split
  · exact raise hpc (.refl s) rfl
  · exact gotoWith hpc (.refl s) rfl (by split <;> rfl)

theorem rdNext_steps {s u : State} (hpc : s.chRx.pc = .rd4) (x : Locals) (hu : KeepsChannels s u) :
    StepsCommand .rxRead s (rdNext x u) :=
  gotoWith hpc hu rfl (by split <;> rfl)

theorem keepsChannels_setCrcStatus (j : Nat) (v : Verdict) (s : State) : KeepsChannels s (s.setCrcStatus j v) :=
  keepsChannels_rx _ s

theorem rdCopy_steps {s u : State} (hpc : s.chRx.pc = .rd4) (x : Locals) (o : Nat) (h : Hdr)
    (hu : KeepsChannels s u) : StepsCommand .rxRead s (rdCopy x o h u) := by
  have hc := hu.trans (((keepsChannels_bufReadNote .rx (o + hdrSize) h.frameSz.toNat u).trans
    (keepsChannels_writeMem .hostMem (u.chRx.opd.a0.toNat + x.cur)
      (u.readMem (.buf .rx) (o + hdrSize) h.frameSz.toNat) _)).trans
    (keepsChannels_setCrcStatus x.j (verify u.cfg h (u.readMem (.buf .rx) (o + hdrSize) h.frameSz.toNat)) _))
  unfold rdCopy
  dsimp only
  split
  · exact rdNext_steps hpc _ hc
  · exact rdNext_steps hpc _ (hc.trans (keepsChannels_logEvent _ _))

theorem rdEntry_steps {s : State} (hpc : s.chRx.pc = .rd4) : StepsCommand .rxRead s (rdEntry s) := by
  have hn := fun o => keepsChannels_bufReadNote .rx o hdrSize s
  unfold rdEntry
  dsimp only
  split
  · exact rdNext_steps hpc _ (keepsChannels_setCrcStatus _ _ s)
  · split
    · exact rdNext_steps hpc _ ((hn _).trans (keepsChannels_setCrcStatus _ _ _))
    · exact rdCopy_steps hpc _ _ _ (hn _)

theorem execRxRead_steps (s : State) : leadsTo (StepsCommand .rxRead s) (execRxRead s) := by
  unfold execRxRead
  split
  next hpc =>
    split
    · exact raise hpc (.refl s) rfl
    · exact goto hpc (.refl s) rfl rfl
  next hpc =>
    split
    · exact stay hpc rfl
    · exact goto hpc (.refl s) rfl rfl
  next hpc => exact rdStart_steps hpc
  next hpc => exact rdEntry_steps hpc
  next hpc => exact finish hpc (keepsChannels_rx _ s) rfl
  · trivial

/-! ## Every command -/

/-- What one step of any command does to the channels, the faults, the log and the time (R14, R18, R19). -/
theorem exec_steps {i : Instr} {s t : State} (h : exec i s = .next t) : StepsCommand i s t := by
  refine leadsTo_of_next ?_ h
  cases i with
  | regRead sp => exact execRegRead_steps sp s
  | regWrite sp => exact execRegWrite_steps sp s
  | irqMask sp => exact execIrqMask_steps sp s
  | irqUnmask sp => exact execIrqUnmask_steps sp s
  | irqWait sp => exact execIrqWait_steps sp s
  | dmaOpen e => exact execDmaOpen_steps e s
  | dmaWrite e cyc cnf => exact execDmaWrite_steps e cyc cnf s
  | dmaRead e => exact execDmaRead_steps e s
  | dmaClose e => exact execDmaClose_steps e s
  | codecEncode e => exact execCodecEncode_steps e s
  | codecDecode e => exact execCodecDecode_steps e s
  | codecCrc e => exact execCodecCrc_steps e s
  | txInit => exact execTxInit_steps s
  | txReset => exact execTxReset_steps s
  | txWrite => exact execTxWrite_steps s
  | txClose => exact execTxClose_steps s
  | txSetMtu => exact execTxSetMtu_steps s
  | rxInit => exact execRxInit_steps s
  | rxReset => exact execRxReset_steps s
  | rxStart => exact execRxStart_steps s
  | rxStop => exact execRxStop_steps s
  | rxReceive => exact execRxReceive_steps s
  | rxRead => exact execRxRead_steps s
  | rxClose => exact execRxClose_steps s

end Sys2Proof.Machine
end

section
/-! SUPPORT. What an issue and the other actions of the host do (R17, R18), and from these and the steps of the commands what
every move leaves: faults, log and time (R20, R170, R920), and the labels of the channels (R19, R103). -/

namespace Sys2Proof.Machine

/-! ## The issue of a word, outcome by outcome (R18, R310, R904) -/

theorem State.issue_illegal {s : State} {w : U32} {x : DecodeError} (hd : decode w = .error x) :
    s.issue w = { s with issueStatus := Status.eIllegal.code } := by
  simp [State.issue, hd]

theorem State.issue_busy {s : State} {w : U32} {i : Instr} (hd : decode w = .ok i)
    (hb : (s.chan i.channel).busy = true) : s.issue w = { s with issueStatus := Status.eBusy.code } := by
  simp [State.issue, hd, hb]

theorem State.issue_idle {s : State} {w : U32} {i : Instr} (hd : decode w = .ok i)
    (hb : (s.chan i.channel).busy = false) : s.issue w = s.begin i w := by
  simp [State.issue, hd, hb]

/-- An issue starts the word's command on its idle channel, or writes `ISSUE_STATUS` alone. -/
theorem State.issue_cases (s : State) (w : U32) :
    (∃ i, decode w = .ok i ∧ (s.chan i.channel).busy = false ∧ s.issue w = s.begin i w) ∨
      ∃ st : Status, s.issue w = { s with issueStatus := st.code } := by
  cases hd : decode w with
  | error x => exact .inr ⟨_, State.issue_illegal hd⟩
  | ok i =>
    cases hb : (s.chan i.channel).busy with
    | true => exact .inr ⟨_, State.issue_busy hd hb⟩
    | false => exact .inl ⟨i, rfl, hb, State.issue_idle hd hb⟩

theorem keepsChannels_issueStatus (v : U32) (s : State) : KeepsChannels s { s with issueStatus := v } := .of_frame rfl

theorem grows_begin (i : Instr) (w : U32) (s : State) : Grows s (s.begin i w) :=
  (grows_setChan _ _ s).trans (keepsChannels_issueStatus _ _).grows

/-- A host's action that leads on writes an argument of a channel that is not busy, issues a word, or leaves the channels
alone (R17). -/
theorem hostStep_eq_next {a : HostAct} {s t : State} (h : hostStep a s = .next t) :
    (∃ c args, t = s.setChan c { s.chan c with arg := args }) ∨ (∃ w, t = s.issue w) ∨ KeepsChannels s t := by
  cases a with
  | writeArg c i v =>
    simp only [hostStep] at h
    split at h <;> cases h
    · exact .inr (.inr (.refl s))
    · exact .inl ⟨c, _, rfl⟩
  | issue w =>
    cases h
    exact .inr (.inl ⟨w, rfl⟩)
  | readReg r =>
    simp only [hostStep] at h
    split at h <;> cases h
    · exact .inr (.inr (.refl s))
    · exact .inr (.inr (.of_frame rfl))
  | readMem a n =>
    simp only [hostStep] at h
    split at h <;> cases h
    exact .inr (.inr (.of_frame rfl))
  | writeMem a bs =>
    simp only [hostStep] at h
    split at h <;> cases h
    exact .inr (.inr (keepsChannels_writeMem _ _ _ s))

theorem hostStep_grows {a : HostAct} {s t : State} (h : hostStep a s = .next t) : Grows s t := by
  rcases hostStep_eq_next h with ⟨c, args, rfl⟩ | ⟨w, rfl⟩ | hk
  · exact grows_setChan _ _ s
  · rcases s.issue_cases w with ⟨i, -, -, hi⟩ | ⟨st, hi⟩
    · exact hi ▸ grows_begin i w s
    · exact hi ▸ (keepsChannels_issueStatus _ s).grows
  · exact hk.grows

/-! ## Faults, log and time under every move -/

theorem channelStep_grows {c : Channel} {s t : State} (h : channelStep c s = .next t) : Grows s t := by
  rcases channelStep_eq_next h with ⟨-, rfl⟩ | ⟨-, i, -, -, hi⟩
  · exact (KeepsChannels.refl _).grows
  · exact (exec_steps hi).grows

/-- Every move but the clock's and reset keeps the time as well. -/
theorem moveBody_grows {m : Move} {s t : State} (hc : m ≠ .clock) (hr : m ≠ .reset) (h : moveBody m s = .next t) :
    Grows s t := by
  cases m with
  | host a => exact hostStep_grows h
  | channel c p => exact (keepsChannels_pick p s).grows.trans (channelStep_grows h)
  | worker p =>
    cases h
    exact ((keepsChannels_pick p s).trans (keepsChannels_workerStep _)).grows
  | dmac e =>
    cases h
    exact (keepsChannels_dmacStep e s).grows
  | modemRx len f =>
    cases h
    exact (keepsChannels_modemRxStep len f s).grows
  | modemTx =>
    cases h
    exact (KeepsChannels.refl s).grows
  | clock => exact absurd rfl hc
  | reset => exact absurd rfl hr

theorem act_grows {m : Move} {s t : State} (hc : m ≠ .clock) (hr : m ≠ .reset) (h : act m s = .next t) : Grows s t := by
  obtain ⟨u, hu, rfl⟩ := act_eq_next h
  exact (moveBody_grows hc hr hu).trans (keepsChannels_latch u).grows

/-- Settles O58: the clock move advances the time and nothing else that is stated here; every other move is `act_grows`. -/
theorem faultsStayAndLogGrows : Obligations.FaultsStayAndLogGrows := by
  unfold Obligations.FaultsStayAndLogGrows
  intro m s t hr h
  by_cases hc : m = .clock
  · subst hc
    cases h
    exact ⟨id, id, ⟨[], (List.append_nil _).symm⟩, rfl, rfl⟩
  · have hg := act_grows hc hr h
    exact ⟨hg.wild, hg.race, hg.log, by rw [if_neg hc, hg.timeMs], hg.cfg⟩

/-! ## Labels under every move (R19, R103) -/

theorem KeepsChannels.labelled {s t : State} (h : KeepsChannels s t) (hs : s.Labelled) : t.Labelled := fun c => by
  rw [h.chan c]
  exact hs c

/-- One channel is written with a labelled value. -/
theorem State.Labelled.setChan {s : State} {c : Channel} {x : Chan} (hs : s.Labelled) (hx : x.Labelled c) :
    (s.setChan c x).Labelled := fun c' => by
  by_cases hc : c' = c
  · subst hc
    rwa [State.chan_setChan_same]
  · rw [State.chan_setChan_other _ _ _ _ hc]
    exact hs c'

theorem ownLabel_firstLabel (i : Instr) : ownLabel i (firstLabel i) = true := by cases i <;> rfl

theorem State.Labelled.begin {s : State} {i : Instr} {w : U32} (hs : s.Labelled) (hd : decode w = .ok i) :
    (s.begin i w).Labelled :=
  (keepsChannels_issueStatus _ _).labelled (hs.setChan (.inr ⟨rfl, i, hd, rfl, ownLabel_firstLabel i⟩))

theorem hostStep_labelled {a : HostAct} {s t : State} (hs : s.Labelled) (h : hostStep a s = .next t) : t.Labelled := by
  rcases hostStep_eq_next h with ⟨c, args, rfl⟩ | ⟨w, rfl⟩ | hk
  · exact hs.setChan (hs c)
  · rcases s.issue_cases w with ⟨i, hd, -, hi⟩ | ⟨st, hi⟩
    · exact hi ▸ hs.begin hd
    · exact hi ▸ (keepsChannels_issueStatus _ s).labelled hs
  · exact hk.labelled hs

/-- A command's step takes its channel to idle or to a label of the same command, and no other channel anywhere. -/
theorem StepsCommand.labelled {i : Instr} {s t : State} (h : StepsCommand i s t) (hs : s.Labelled)
    (hb : (s.chan i.channel).busy = true) (hd : decode (s.chan i.channel).cmd = .ok i) : t.Labelled := fun c => by
  by_cases hc : c = i.channel
  · subst hc
    refine h.there.imp id fun ⟨hbusy, hl⟩ => ⟨hbusy.trans hb, i, ?_, rfl, hl⟩
    rw [h.cmd, hd]
  · rw [h.others c hc]
    exact hs c

theorem channelStep_labelled {c : Channel} {s t : State} (hs : s.Labelled) (h : channelStep c s = .next t) :
    t.Labelled := by
  rcases channelStep_eq_next h with ⟨-, rfl⟩ | ⟨hb, i, hd, rfl, hi⟩
  · exact hs
  · exact (exec_steps hi).labelled hs hb hd

theorem moveBody_labelled {m : Move} {s t : State} (hs : s.Labelled) (h : moveBody m s = .next t) : t.Labelled := by
  cases m with
  | host a => exact hostStep_labelled hs h
  | channel c p => exact channelStep_labelled ((keepsChannels_pick p s).labelled hs) h
  | worker p =>
    cases h
    exact ((keepsChannels_pick p s).trans (keepsChannels_workerStep _)).labelled hs
  | dmac e =>
    cases h
    exact (keepsChannels_dmacStep e s).labelled hs
  | modemRx len f =>
    cases h
    exact (keepsChannels_modemRxStep len f s).labelled hs
  | modemTx =>
    cases h
    exact hs
  | clock =>
    cases h
    exact hs
  | reset =>
    cases h
    exact fun c => by cases c <;> exact .inl ⟨rfl, rfl⟩

theorem act_labelled {m : Move} {s t : State} (hs : s.Labelled) (h : act m s = .next t) : t.Labelled := by
  obtain ⟨u, hu, rfl⟩ := act_eq_next h
  exact (keepsChannels_latch u).labelled (moveBody_labelled hs hu)

/-- Settles O10: taking the next move leaves the channels alone, and every move keeps their labels. -/
theorem labelsStayLegal : Obligations.LabelsStayLegal := by
  unfold Obligations.LabelsStayLegal
  intro s t hs h
  obtain ⟨-, ha⟩ := step_eq_next h
  refine act_labelled (?_ : s.nextMove.2.Labelled) ha
  rw [State.nextMove_frame]
  exact hs

end Sys2Proof.Machine
end

section
/-! SUPPORT. When a move is an enabled step of its agent (R13, R16, R20), and that a move that is none stands still. -/

namespace Sys2Proof.Machine

/-! ## Waits that are not enabled -/

/-- An interrupt wait whose picked completion is not enabled does not complete (R407). -/
theorem State.irqWait_eq_none {s : State} {sp : Space} {t0 T : Nat} (h : s.irqWaitTakes sp t0 T s.pick = false) :
    s.irqWait sp t0 T = none := by
  unfold State.irqWaitTakes at h
  unfold State.irqWait
  split <;> simp_all

/-- A DMA procedure has to wait at its interrupt wait only (R509). -/
theorem dmaStep_eq_blocked {s : State} {e : Engine} {l : DmaLabel} {d : DmaLocals}
    (h : s.dmaTakes e l d s.pick = false) : dmaStep e l d s = .blocked := by
  cases l
  case wp3 => simp only [dmaStep, dmaIrqWait, State.irqWait_eq_none h]
  all_goals cases h

theorem dmaCommand_stands {s : State} {e : Engine} {l : DmaLabel} (cyc cnf : Bool)
    (h : s.dmaTakes e l (s.chan e.channel).loc.dma s.pick = false) : dmaCommand e cyc cnf l s = .next s := by
  have hb := dmaStep_eq_blocked (d := dmaArgs (s.chan e.channel).opd cyc cnf (s.chan e.channel).loc.dma) h
  simp only [dmaCommand, hb]

theorem txFlush_stands {s : State} {l : DmaLabel} (mk : DmaLabel → Label) (k : State → State)
    (h : s.dmaTakes .tx l s.chTx.loc.dma s.pick = false) : txFlush mk k l s = s := by
  simp only [txFlush, dmaStep_eq_blocked h]

/-- The pause has no predicate: only its timeout completes it (R21). -/
theorem txPause_stands {s : State} (h : s.deadlineTakes (s.chTx.loc.t0 + s.cfg.bpPauseMs) false s.pick = false) :
    txPause s = s := by
  unfold txPause
  refine if_neg fun ⟨hp, he⟩ => ?_
  rw [hp] at h
  exact absurd (he.symm.trans h) (by decide)

theorem rvWait_stands {s : State} {p : Bool} (onWake onExpire : Label)
    (h : s.deadlineTakes s.chRx.loc.deadline p s.pick = false) : rvWait p onWake onExpire s = s := by
  unfold State.deadlineTakes at h
  unfold rvWait
  split <;> simp_all

theorem execIrqWait_stands {s : State} {sp : Space} (hpc : s.chBus.pc = .irqWait)
    (h : s.irqWaitTakes sp s.chBus.loc.t0 s.chBus.opd.a0.toNat s.pick = false) : execIrqWait sp s = .next s := by
  simp only [execIrqWait, hpc, State.irqWait_eq_none h]

theorem execDmaWrite_stands {s : State} {l : DmaLabel} (cyc cnf : Bool) (hpc : s.chTx.pc = .dma l)
    (h : s.dmaTakes .tx l s.chTx.loc.dma s.pick = false) : execDmaWrite .tx cyc cnf s = .next s := by
  have hd : dmaCommand .tx cyc cnf l s = .next s := dmaCommand_stands cyc cnf h
  simp [execDmaWrite, Engine.channel, hpc, hd]

theorem execDmaRead_stands {s : State} {l : DmaLabel} (hpc : s.chRx.pc = .dma l)
    (h : s.dmaTakes .rx l s.chRx.loc.dma s.pick = false) : execDmaRead .rx s = .next s := by
  have hd : dmaCommand .rx false true l s = .next s := dmaCommand_stands false true h
  have hl : l ≠ .d1 := by
    rintro rfl
    cases h
  simp [execDmaRead, Engine.channel, hpc, hd, hl]

/-! ## Channels -/

/-- The command without fields that has a wait at the label. -/
def Label.waitOf : Label → Option Instr
  | .tsFlush _ | .tbFlush _ | .tbEobf _ | .tbPause => some .txWrite
  | .rv2 | .rv5 | .rv9 => some .rxReceive
  | .rd2 => some .rxRead
  | .rc3 => some .rxClose
  | _ => none

/-- No other command has that label (R19, R103). -/
theorem eq_of_waitOf {i j : Instr} {l : Label} (hj : l.waitOf = some j) (h : ownLabel i l = true) : i = j := by
  -- The labels with such a wait remain; for each, a command is the one that waits there or does not own the label.
  cases l <;> cases hj
  all_goals cases i <;> first | rfl | cases h

/-- A channel that runs such a command: its label is the command's, so the command is the one that waits there. -/
theorem exec_eq_of_waitOf {i j : Instr} {s t : State} {l : Label} (he : exec i s = .next t)
    (hpc : (s.chan i.channel).pc = l) (hj : l.waitOf = some j) : i = j :=
  eq_of_waitOf hj (hpc ▸ (exec_steps he).here)

/-- A command whose step at its label is not enabled stands still: wait by wait, at the command that has it. -/
theorem exec_stands {i : Instr} {s t : State} (h : s.labelTakes i.channel i s.pick = false)
    (he : exec i s = .next t) : t = s := by
  suffices hs : exec i s = .next s by simpa [he] using hs
  unfold State.labelTakes at h
  dsimp only at h
  split at h
  next hpc =>
    split at h
    next sp => exact execIrqWait_stands hpc h
    · cases h
  next l hpc =>
    split at h
    next cyc cnf => exact execDmaWrite_stands cyc cnf hpc h
    next => exact execDmaRead_stands hpc h
    · cases h
  next l hpc =>
    obtain rfl := exec_eq_of_waitOf he hpc rfl
    change s.chTx.pc = _ at hpc
    simp only [exec, execTxWrite, hpc, txFlush_stands _ _ h]
  next l hpc =>
    obtain rfl := exec_eq_of_waitOf he hpc rfl
    change s.chTx.pc = _ at hpc
    simp only [exec, execTxWrite, hpc, txFlush_stands _ _ h]
  next l hpc =>
    obtain rfl := exec_eq_of_waitOf he hpc rfl
    change s.chTx.pc = _ at hpc
    simp only [exec, execTxWrite, hpc, txFlush_stands _ _ h]
  next hpc =>
    obtain rfl := exec_eq_of_waitOf he hpc rfl
    change s.chTx.pc = _ at hpc
    simp only [exec, execTxWrite, hpc, txPause_stands h]
  next hpc =>
    obtain rfl := exec_eq_of_waitOf he hpc rfl
    change s.chRx.pc = _ at hpc
    simp_all [exec, execRxReceive]
  next hpc =>
    obtain rfl := exec_eq_of_waitOf he hpc rfl
    change s.chRx.pc = _ at hpc
    simp_all [exec, execRxRead]
  next hpc =>
    obtain rfl := exec_eq_of_waitOf he hpc rfl
    change s.chRx.pc = _ at hpc
    simp_all [exec, execRxClose]
  next hpc =>
    obtain rfl := exec_eq_of_waitOf he hpc rfl
    change s.chRx.pc = _ at hpc
    simp only [exec, execRxReceive, hpc, rvWait_stands _ _ h]
  next hpc =>
    obtain rfl := exec_eq_of_waitOf he hpc rfl
    change s.chRx.pc = _ at hpc
    simp only [exec, execRxReceive, hpc]
    exact congrArg Host.Outcome.next (rvWait_stands _ _ h)
  · cases h

/-- A channel whose step is not enabled stands still: it is idle, or its command waits. -/
theorem channelStep_stands {c : Channel} {s t : State} (h : s.channelTakes c s.pick = false)
    (hc : channelStep c s = .next t) : t = s := by
  rcases channelStep_eq_next hc with ⟨-, rfl⟩ | ⟨hb, i, hd, rfl, he⟩
  · rfl
  · refine exec_stands ?_ he
    simpa [State.channelTakes, hb, hd] using h

/-! ## The worker, the controllers and the RX IP core -/

theorem wWait_stands {s : State} (h : s.irqWaitTakes .mrx s.worker.t0 s.cfg.rxIrqTimeoutMs s.pick = false) :
    wWait s = s := by
  simp only [wWait, State.irqWait_eq_none h]

theorem wRead_stands {s : State} {l : DmaLabel} (h : s.dmaTakes .rx l s.worker.dma s.pick = false) :
    wRead l s = s := by
  simp only [wRead, dmaStep_eq_blocked h]

theorem workerStep_stands {s : State} (h : s.workerTakes s.pick = false) : workerStep s = s := by
  unfold State.workerTakes at h
  split at h
  next hpc => simp only [workerStep, hpc]
  next hpc => simp only [workerStep, hpc, wWait_stands h]
  next l hpc => simp only [workerStep, hpc, wRead_stands h]
  all_goals cases h

/-- A controller whose step is not enabled has nothing queued, is disabled, or waits for its stream side (R540, R543). -/
theorem dmacStep_stands {e : Engine} {s : State} (h : s.dmacEnabled e = false) : dmacStep e s = s := by
  unfold State.dmacEnabled at h
  unfold dmacStep
  dsimp only
  split
  · rfl
  next r rest hq =>
    rw [hq] at h
    split
    · rfl
    next hen =>
      split
      next hst => simp [hen, hst] at h
      next hst =>
        have hready : s.streamReady e = false := by simpa [hen, hst] using h
        cases e
        case tx =>
          have hr : s.mtx.reset.getLsbD 0 = true := by simpa [State.streamReady] using hready
          simp only [hr, if_true]
        case rx =>
          have hr : s.mrx.rxq = [] := by simpa [State.streamReady] using hready
          simp only [hr]

theorem State.modemRxEnabled_iff (s : State) : s.modemRxEnabled = true ↔
    s.mrx.rxEnable.getLsbD 0 = true ∧ s.mrx.reset.getLsbD 0 = false ∧ s.mrx.rxq.length < s.cfg.rxqDepth := by
  simp [State.modemRxEnabled, and_assoc]

theorem modemRxStep_enabled {s : State} (len : U32) (f : List Byte) (h : s.modemRxEnabled = true) :
    modemRxStep len f s = { s with mrx := { s.mrx with rxq := s.mrx.rxq ++ [(len, f)] } } :=
  if_pos (s.modemRxEnabled_iff.1 h)

theorem modemRxStep_stands {s : State} (len : U32) (f : List Byte) (h : s.modemRxEnabled = false) :
    modemRxStep len f s = s :=
  if_neg fun hn => by simp [s.modemRxEnabled_iff.2 hn] at h

/-! ## Moves and agents -/

/-- A move that is no enabled step of its agent changes nothing but the model's own `pick`. -/
theorem moveBody_stands {m : Move} {s t : State} (h : s.takes m = false) (hm : moveBody m s = .next t) :
    t = { s with pick := t.pick } := by
  cases m with
  | channel c p =>
    have hp : ({ s with pick := p } : State).channelTakes c p = false := by cases c <;> exact h
    rw [channelStep_stands hp hm]
  | worker p =>
    cases hm
    rw [workerStep_stands (s := { s with pick := p }) h]
  | dmac e =>
    cases hm
    rw [dmacStep_stands h]
  | modemRx len f =>
    cases hm
    rw [modemRxStep_stands len f h]
  | modemTx =>
    cases hm
    rfl
  | host a => cases h
  | clock => cases h
  | reset => cases h

theorem act_stands {m : Move} {s t : State} (h : s.takes m = false) (ha : act m s = .next t) :
    t = { s.latch with pick := t.pick } := by
  obtain ⟨u, hu, rfl⟩ := act_eq_next ha
  rw [moveBody_stands h hu]
  rfl

theorem anyPick_iff {f : Pick → Bool} : anyPick f = true ↔ ∃ p, f p = true := by
  constructor
  · intro h
    simp only [anyPick, Bool.or_eq_true] at h
    rcases h with (h | h) | h
    · exact ⟨_, h⟩
    · exact ⟨_, h⟩
    · exact ⟨_, h⟩
  · rintro ⟨p, hp⟩
    cases p <;> simp [anyPick, hp]

/-- An enabled step of an agent, as one of its moves (R15, R16). -/
theorem State.agentEnabled_iff (a : Agent) (s : State) :
    s.agentEnabled a = true ↔ ∃ m : Move, m.agent = some a ∧ s.takes m = true := by
  constructor
  · intro h
    cases a with
    | host => exact ⟨.host (.issue 0#32), rfl, rfl⟩
    | channel c =>
      obtain ⟨p, hp⟩ := anyPick_iff.1 h
      exact ⟨.channel c p, rfl, hp⟩
    | rxw =>
      obtain ⟨p, hp⟩ := anyPick_iff.1 h
      exact ⟨.worker p, rfl, hp⟩
    | dmac e => exact ⟨.dmac e, rfl, h⟩
    | modemRx => exact ⟨.modemRx 0#32 [], rfl, h⟩
    | modemTx => cases h
    | clock => exact ⟨.clock, rfl, rfl⟩
  · rintro ⟨m, hm, ht⟩
    cases m with
    | host a => cases hm; rfl
    | channel c p => cases hm; exact anyPick_iff.2 ⟨p, ht⟩
    | worker p => cases hm; exact anyPick_iff.2 ⟨p, ht⟩
    | dmac e => cases hm; exact ht
    | modemRx len f => cases hm; exact ht
    | modemTx => cases ht
    | clock => cases hm; rfl
    | reset => cases hm

/-- Settles O9, agent by agent. -/
theorem disabledAgentsStandStill : Obligations.DisabledAgentsStandStill := by
  unfold Obligations.DisabledAgentsStandStill
  refine ⟨fun a s => s.agentEnabled_iff a, fun m s t h ha => act_stands h ha, fun s len f => ?_⟩
  refine ⟨s.modemRxEnabled_iff, fun h => ?_⟩
  rw [← modemRxStep_enabled len f h]
  rfl

end Sys2Proof.Machine
end

section
/-! SUPPORT. Where a word is routed and what its issue does (R18), the host's other actions one by one (R17), the step of the
machine move by move (R16), and the completion of a command (R13, R901). -/

namespace Sys2Proof.Machine

/-! ## The route of a word (R18, R302, R305) -/

theorem eq_of_withFormat {m w : U32} {i j : Instr} (h : withFormat m w i = .ok j) : j = i := by
  unfold withFormat at h
  split at h
  · cases h; rfl
  · cases h

theorem channel_engField (w : U32) : (engField w).channel = if w.getLsbD 8 then .rx else .tx := by
  unfold engField
  split <;> rfl

/-- The channel of a word's command, by its `UNIT` field, and for DMA and CODEC by its `ENG` field. -/
theorem channel_of_decode {w : U32} {i : Instr} (h : decode w = .ok i) :
    i.channel = (if unitField w = 1 then .bus else if unitField w = 4 then .tx else if unitField w = 5 then .rx
      else if w.getLsbD 8 then .rx else .tx) := by
  unfold decode at h
  split at h
  case h_25 => split at h <;> cases h
  all_goals
    rename_i hu _
    obtain rfl := eq_of_withFormat h
    simp [hu, Instr.channel, channel_engField]

/-- Settles O6: the three outcomes of an issue are the lemmas `State.issue_illegal`, `issue_busy` and `issue_idle`. -/
theorem issueRoutesStartsOrDrops : Obligations.IssueRoutesStartsOrDrops := by
  unfold Obligations.IssueRoutesStartsOrDrops
  intro first s w
  refine ⟨fun x hd => State.issue_illegal hd, fun i hd => ⟨channel_of_decode hd, State.issue_busy hd, fun hb => ?_⟩,
    fun c st vs => by rw [State.chan_finish]⟩
  have hf : first i = firstLabel i := by cases i <;> rfl
  refine ⟨{ t0 := s.timeMs }, fun _ _ => rfl, ?_⟩
  rw [State.issue_idle hd hb, hf]
  rfl

/-! ## The host's actions (R17, R101) -/

theorem Operands.get_set (a : Operands) (i j : Fin 8) (v : U32) : (a.set i v).get j = if j = i then v else a.get j := by
  split
  next h =>
    subst h
    fin_cases j <;> rfl
  next h => fin_cases i <;> fin_cases j <;> first | rfl | exact absurd rfl h

theorem hostStep_writeArg_idle {s : State} {c : Channel} (i : Fin 8) (v : U32) (h : (s.chan c).busy = false) :
    hostStep (.writeArg c i v) s = .next (s.setChan c { s.chan c with arg := (s.chan c).arg.set i v }) := by
  simp [hostStep, h]

theorem hostStep_writeArg_busy {s : State} {c : Channel} (i : Fin 8) (v : U32) (h : (s.chan c).busy = true) :
    hostStep (.writeArg c i v) s = .next s := by
  simp [hostStep, h]

/-- A read that has a value changes what the host got, one that has none changes nothing. -/
theorem hostStep_readReg_some {s : State} {r : HostReg} {v : U32} (h : s.hostRead r = some v) :
    hostStep (.readReg r) s = .next { s with hostGot := .word v } := by
  simp only [hostStep, h]

theorem hostStep_readReg_none {s : State} {r : HostReg} (h : s.hostRead r = none) :
    hostStep (.readReg r) s = .next s := by
  simp only [hostStep, h]

theorem State.hostRead_status (s : State) (c : Channel) :
    s.hostRead (.status c) = if (s.chan c).busy then none else some (s.chan c).status := rfl

theorem State.hostRead_res (s : State) (c : Channel) (i : Fin 10) :
    s.hostRead (.res c i) = if (s.chan c).busy then none else some ((s.chan c).res.get i) := rfl

theorem hostStep_readMem {s : State} {a n : Nat} (h : a + n ≤ s.cfg.hostMemSize) :
    hostStep (.readMem a n) s = .next { s with hostGot := .bytes (s.readMem .hostMem a n) } := if_pos h

theorem hostStep_writeMem {s : State} {a : Nat} {bs : List Byte} (h : a + bs.length ≤ s.cfg.hostMemSize) :
    hostStep (.writeMem a bs) s = .next (s.writeMem .hostMem a bs) := if_pos h

/-- Every byte of a space after a write to it. -/
theorem State.byteAt_writeMem (s : State) (z : ByteSpace) (a x : Nat) (bs : List Byte) :
    (s.writeMem z a bs).byteAt z x =
      if a ≤ x ∧ x < a + bs.length then bs.getD (x - a) 0#8 else s.byteAt z x := by
  split
  next h => exact State.byteAt_writeMem_inside s z a x bs h.1 h.2
  next h => exact State.byteAt_writeMem_outside s z a x bs (by omega)

/-- Settles O7, action by action. -/
theorem hostActsAsAllowed : Obligations.HostActsAsAllowed := by
  unfold Obligations.HostActsAsAllowed
  intro s
  refine ⟨fun c i v h => ⟨_, hostStep_writeArg_idle i v h, fun j => Operands.get_set _ i j v⟩,
    fun c i v h => hostStep_writeArg_busy i v h, fun w => rfl, fun c h => ⟨?_, fun i => ?_⟩, fun c h => ⟨?_, fun i => ?_⟩,
    fun c i => rfl, fun c => rfl, fun c => rfl, rfl, fun a n h => ?_, fun a bs h => ?_⟩
  · exact hostStep_readReg_some (by rw [State.hostRead_status, h]; rfl)
  · exact hostStep_readReg_some (by rw [State.hostRead_res, h]; rfl)
  · exact hostStep_readReg_none (by rw [State.hostRead_status, h]; rfl)
  · exact hostStep_readReg_none (by rw [State.hostRead_res, h]; rfl)
  · refine ⟨_, hostStep_readMem h, State.length_readMem .., fun k hk => ?_⟩
    have hk' : k < (s.readMem .hostMem a n).length := by rwa [State.length_readMem]
    rw [List.getElem?_eq_getElem hk', State.getElem_readMem]
  · exact ⟨_, hostStep_writeMem h, rfl, fun x => State.byteAt_writeMem s .hostMem a x bs⟩

/-! ## The step of the machine (R8, R16) -/

theorem step_refused {s : State} (h : s.cfg.wf = false) : step s = .refused .badConfig := by
  simp [step, machineStep, h]

theorem step_eq_act {s : State} (h : s.cfg.wf = true) : step s = act s.nextMove.1 s.nextMove.2 := if_pos h

/-- With a script, the step is that of its first move. -/
theorem step_of_script {s : State} {m : Move} {rest : List Move} (hw : s.cfg.wf = true) (hs : s.script = m :: rest) :
    step s = act m { s with script := rest } := by
  rw [step_eq_act hw, State.nextMove, hs]

/-- With none, the next move is that of a script with one free move. -/
theorem State.nextMove_of_empty_script {s : State} (hs : s.script = []) :
    s.nextMove = ({ s with script := [Config.freeMove s.draws], draws := s.draws + 1 } : State).nextMove := by
  simp [State.nextMove, hs]

theorem step_of_empty_script {s : State} (hs : s.script = []) :
    step s = step { s with script := [Config.freeMove s.draws], draws := s.draws + 1 } := by
  unfold step machineStep
  rw [State.nextMove_of_empty_script hs]

theorem channelStep_idle {c : Channel} {s : State} (h : (s.chan c).busy = false) : channelStep c s = .next s :=
  if_pos h

/-- A busy channel whose word spells no command of its own stops (R19, log 13). -/
theorem channelStep_stray {c : Channel} {s : State} (hb : (s.chan c).busy = true)
    (h : ∀ i, decode (s.chan c).cmd = .ok i → i.channel ≠ c) : channelStep c s = .fault .strayLabel := by
  cases hd : decode (s.chan c).cmd with
  | error x => simp [channelStep, hb, hd]
  | ok i => simp [channelStep, hb, hd, h i hd]

theorem State.chan_script_pick (s : State) (ms : List Move) (p : Pick) (c : Channel) :
    ({ s with script := ms, pick := p } : State).chan c = s.chan c := by
  cases c <;> rfl

/-- Settles O8, move by move. -/
theorem stepRunsDecodedCommand : Obligations.StepRunsDecodedCommand := by
  unfold Obligations.StepRunsDecodedCommand
  refine fun s => ⟨step_refused, step_of_empty_script, fun rest hw => ?_⟩
  have hstep := fun m => step_of_script (m := m) (rest := rest) hw
  refine ⟨fun a => hstep _, fun c p hs => ?_, fun p => hstep _, fun e => hstep _, fun len f => hstep _, hstep _, hstep _,
    hstep _⟩
  have hc := State.chan_script_pick s rest p c
  have hact : step s = onNext State.latch (channelStep c { s with script := rest, pick := p }) := hstep _ hs
  rw [hact]
  refine ⟨fun hb => ?_, fun hb => ⟨fun i hd hi => ?_, fun h => ?_⟩⟩
  · rw [channelStep_idle (by rw [hc, hb])]
    rfl
  · rw [channelStep_eq_exec (by rw [hc, hb]) (by rw [hc, hd]) hi]
  · rw [channelStep_stray (by rw [hc, hb]) (by rw [hc]; exact h)]
    rfl

/-! ## The completion of a command (R13, R18, R102, R902) -/

theorem Results.get_put (r : Results) (vs : List U32) (i : Fin 10) : (r.put vs).get i = vs.getD i.val (r.get i) := by
  fin_cases i <;> rfl

theorem Results.put_nil (r : Results) : r.put [] = r := rfl

theorem State.finish_eq_setChan (s : State) (c : Channel) (st : Status) (vs : List U32) :
    s.finish c st vs = s.setChan c ((s.finish c st vs).chan c) := by
  unfold State.finish
  rw [State.chan_setChan_same]

/-- Settles O12: the codes status by status, the completion by `State.chan_finish`. -/
theorem finishSetsNamedResults : Obligations.FinishSetsNamedResults := by
  unfold Obligations.FinishSetsNamedResults
  refine ⟨fun st => by cases st <;> decide, fun s c st vs => ?_⟩
  have hf := State.chan_finish s c st vs
  have hr : (s.raise c st).chan c = _ := State.chan_finish s c st []
  rw [hr, Results.put_nil]
  refine ⟨by rw [hf], by rw [hf], by rw [hf], by rw [hf], by rw [hf], fun i => ?_, State.finish_eq_setChan .., rfl, rfl⟩
  rw [hf]
  exact Results.get_put ..

end Sys2Proof.Machine
end

section
/-! SUPPORT. The register maps row by row: which registers stand in a space's map and at which offsets (R131, R140,
R141, R404); what REG.READ answers (R410). -/

namespace Sys2Proof.Machine

/-! ## Which registers a map lists -/

theorem mem_dmacTable {c : Config} {e : Engine} {o : U32} {r : Reg} :
    (o, r) ∈ dmacTable c.dmacMap e ↔ ∃ k, r = .dmac e k ∧ offsetOf c r = o := by
  constructor
  · intro h
    simp only [dmacTable, List.mem_cons, List.not_mem_nil, or_false, Prod.mk.injEq] at h
    rcases h with ⟨rfl, rfl⟩ | ⟨rfl, rfl⟩ | ⟨rfl, rfl⟩ | ⟨rfl, rfl⟩ | ⟨rfl, rfl⟩ | ⟨rfl, rfl⟩ | ⟨rfl, rfl⟩ | ⟨rfl, rfl⟩ |
      ⟨rfl, rfl⟩ | ⟨rfl, rfl⟩ | ⟨rfl, rfl⟩ | ⟨rfl, rfl⟩ | ⟨rfl, rfl⟩ <;> exact ⟨_, rfl, rfl⟩
  · rintro ⟨k, rfl, rfl⟩
    cases k <;> simp [dmacTable, offsetOf]

theorem mem_modemTxTable {c : Config} {o : U32} {r : Reg} :
    (o, r) ∈ modemTxTable c.modemTxMap ↔ ∃ k, r = .mtx k ∧ offsetOf c r = o := by
  constructor
  · intro h
    simp only [modemTxTable, List.mem_cons, List.not_mem_nil, or_false, Prod.mk.injEq] at h
    rcases h with ⟨rfl, rfl⟩ | ⟨rfl, rfl⟩ <;> exact ⟨_, rfl, rfl⟩
  · rintro ⟨k, rfl, rfl⟩
    cases k <;> simp [modemTxTable, offsetOf]

/-- Of the four coefficients the first `FR_COEF_COUNT` are listed (R141). -/
theorem mem_frCoefTable {c : Config} {o : U32} {r : Reg} {n : Nat} :
    (o, r) ∈ ([(c.modemRxMap.frCoef0, Reg.mrx (.frCoef 0)), (c.modemRxMap.frCoef1, .mrx (.frCoef 1)),
      (c.modemRxMap.frCoef2, .mrx (.frCoef 2)), (c.modemRxMap.frCoef3, .mrx (.frCoef 3))].take n) ↔
    ∃ k : Fin 4, r = .mrx (.frCoef k) ∧ k.val < n ∧ offsetOf c r = o := by
  rw [List.mem_take_iff_getElem]
  constructor
  · rintro ⟨j, hj, h⟩
    obtain ⟨hn, hj4⟩ : j < n ∧ j < 4 := lt_min_iff.1 hj
    refine ⟨⟨j, hj4⟩, ?_⟩
    interval_cases j <;> obtain ⟨rfl, rfl⟩ := Prod.mk.inj h <;> exact ⟨rfl, hn, rfl⟩
  · rintro ⟨k, rfl, hk, rfl⟩
    refine ⟨k.val, lt_min hk k.isLt, ?_⟩
    fin_cases k <;> rfl

theorem mem_modemRxTable {c : Config} {o : U32} {r : Reg} :
    (o, r) ∈ modemRxTable c.modemRxMap c.frCoefCount ↔ ∃ k, r = .mrx k ∧ hasReg c r ∧ offsetOf c r = o := by
  unfold modemRxTable
  rw [List.mem_append, mem_frCoefTable]
  constructor
  · rintro (h | ⟨k, rfl, hk, rfl⟩)
    · simp only [List.mem_cons, List.not_mem_nil, or_false, Prod.mk.injEq] at h
      rcases h with ⟨rfl, rfl⟩ | ⟨rfl, rfl⟩ | ⟨rfl, rfl⟩ | ⟨rfl, rfl⟩ | ⟨rfl, rfl⟩ | ⟨rfl, rfl⟩ | ⟨rfl, rfl⟩ |
        ⟨rfl, rfl⟩ <;> exact ⟨_, rfl, trivial, rfl⟩
    · exact ⟨_, rfl, hk, rfl⟩
  · rintro ⟨k, rfl, hk, rfl⟩
    cases k
    case frCoef k => exact .inr ⟨k, rfl, hk, rfl⟩
    all_goals exact .inl (by simp [offsetOf])

/-- A space's map lists the registers of the space that exist, each at its offset. -/
theorem mem_regTable {c : Config} {sp : Space} {o : U32} {r : Reg} :
    (o, r) ∈ regTable c sp ↔ r.space = sp ∧ hasReg c r ∧ offsetOf c r = o := by
  have hspace : ∀ e : Engine, (∃ k, r = .dmac e k ∧ offsetOf c r = o) ↔
      r.space = e.space ∧ hasReg c r ∧ offsetOf c r = o := by
    intro e
    rcases r with ⟨e', k⟩ | k | k
    · cases e <;> cases e' <;> simp [Reg.space, Engine.space, hasReg]
    · cases e <;> simp [Reg.space, Engine.space]
    · cases e <;> simp [Reg.space, Engine.space]
  cases sp with
  | dtx => exact mem_dmacTable.trans (hspace .tx)
  | drx => exact mem_dmacTable.trans (hspace .rx)
  | mtx =>
    refine mem_modemTxTable.trans ?_
    rcases r with ⟨e, k⟩ | k | k
    · cases e <;> simp [Reg.space, Engine.space]
    · simp [Reg.space, hasReg]
    · simp [Reg.space]
  | mrx =>
    refine mem_modemRxTable.trans ?_
    rcases r with ⟨e, k⟩ | k | k
    · cases e <;> simp [Reg.space, Engine.space]
    · simp [Reg.space]
    · simp [Reg.space]

/-- A mapped offset of a space names a register of that space, under every configuration. -/
theorem space_of_regAt {c : Config} {sp : Space} {o : U32} {r : Reg} (h : regAt c sp o = some r) : r.space = sp := by
  unfold regAt at h
  split at h
  · obtain ⟨p, hp, rfl⟩ := Option.map_eq_some_iff.1 h
    exact (mem_regTable.1 (List.mem_of_find?_eq_some hp)).1
  · cases h

/-! ## REG.READ (R402, R404, R410) -/

theorem execRegRead_mapped {s : State} {sp : Space} {r : Reg} (hpc : s.chBus.pc = .regRead)
    (h : regAt s.cfg sp s.chBus.opd.a0 = some r) : execRegRead sp s = .next (s.finish .bus .ok [s.regRead r]) := by
  simp only [execRegRead, hpc, h]

theorem execRegRead_unmapped {s : State} {sp : Space} (hpc : s.chBus.pc = .regRead)
    (h : regAt s.cfg sp s.chBus.opd.a0 = none) : execRegRead sp s = .next (s.raise .bus .eBus) := by
  simp only [execRegRead, hpc, h]

theorem ModemRx.payloadLen_nil {m : ModemRx} (h : m.rxq = []) : m.payloadLen = 0#32 := by
  simp only [ModemRx.payloadLen, h]

theorem ModemRx.payloadLen_cons {m : ModemRx} {len : U32} {f : List Byte} {q : List (U32 × List Byte)}
    (h : m.rxq = (len, f) :: q) : m.payloadLen = len := by
  simp only [ModemRx.payloadLen, h]

/-- Settles O14: the maps by `mem_regTable`, the completion by what `regAt` finds in them. -/
theorem regReadCompletes : Obligations.RegReadCompletes := by
  unfold Obligations.RegReadCompletes
  refine ⟨fun c sp o r => mem_regTable, fun c hd ht hr => ⟨fun e => ?_, ?_, ?_⟩,
    fun s sp hw hpc => ⟨fun r hm => ?_, fun h => ?_⟩, fun s e => ?_⟩
  · simp only [List.map_cons, List.map_nil, offsetOf, hd]
  · simp only [List.map_cons, List.map_nil, offsetOf, ht]
  · simp only [List.map_cons, List.map_nil, offsetOf, hr]
  · exact execRegRead_mapped hpc ((regAt_eq_some_iff hw).2 hm)
  · exact execRegRead_unmapped hpc (regAt_eq_none h)
  · exact ⟨rfl, rfl, rfl, rfl, rfl, rfl, rfl, rfl, rfl, rfl, rfl, rfl, rfl, rfl, rfl, rfl, rfl, rfl, rfl, rfl, rfl, rfl,
      rfl, rfl, rfl, rfl, ModemRx.payloadLen_nil, fun _ _ _ => ModemRx.payloadLen_cons⟩

end Sys2Proof.Machine
end

section
/-! SUPPORT. One step of a command on the register spaces: at most one register write (R402, R403). And its frame on the
whole state, field by field (R180, R905), one lemma per command, along its labels. -/

namespace Sys2Proof.Machine

/-! ## The register spaces of a state -/

/-- The four register spaces with their queues (R130 to R142), and the configuration that bounds them. -/
def State.regFile (s : State) : Dmac × Dmac × ModemTx × ModemRx × Config := (s.dtx, s.drx, s.mtx, s.mrx, s.cfg)

@[simp] theorem State.regFile_setChan (s : State) (c : Channel) (x : Chan) : (s.setChan c x).regFile = s.regFile := by
  cases c <;> rfl

/-- `t` has the register spaces of `s`, or those that one register write leaves. -/
inductive WritesRegister (s t : State) : Prop
  | none (h : t.regFile = s.regFile)
  | one (r : Reg) (v : U32) (h : t.regFile = (s.regWrite r v).regFile)

theorem WritesRegister.congr {s t u : State} (h : WritesRegister s t) (hu : u.regFile = t.regFile) :
    WritesRegister s u := by
  cases h with
  | none h => exact .none (hu.trans h)
  | one r v h => exact .one r v (hu.trans h)

theorem regFile_irqWait {s t : State} {sp : Space} {t0 T : Nat} {r : IrqResult}
    (h : s.irqWait sp t0 T = some (r, t)) : t.regFile = s.regFile := by
  rcases State.irqWait_eq_some h with ⟨-, -, -, rfl⟩ | ⟨-, -, -, rfl⟩ | ⟨-, -, -, rfl⟩ <;> rfl

/-! ## The DMA procedures -/

theorem eq_of_afterPhase_go {e : Engine} {d d' : DmaLocals} {s t : State} {l : DmaLabel}
    (h : afterPhase e d s = .go l d' t) : t = s := by
  unfold afterPhase at h
  split at h
  · cases h; rfl
  · split at h
    · cases h; rfl
    · split at h <;> cases h <;> rfl

/-- The step that returns changes nothing. -/
theorem eq_of_dmaStep_ret {e : Engine} {l : DmaLabel} {d : DmaLocals} {s t : State} {st : Status} {v : U32}
    (h : dmaStep e l d s = .ret st v t) : t = s := by
  rcases dmaStep_status h with ⟨-, ht, -⟩ | ⟨-, -, ht⟩ | ⟨-, -, -, ht⟩ <;> exact ht

/-- A step of a DMA procedure that goes on makes at most one register write (R505, R507, R509, R510). -/
theorem writesRegister_dmaStep {e : Engine} {l l' : DmaLabel} {d d' : DmaLocals} {s t : State}
    (h : dmaStep e l d s = .go l' d' t) : WritesRegister s t := by
  cases l <;> simp only [dmaStep] at h
  case d1 =>
    unfold dmaCheck at h
    split at h
    · cases h
    · split at h
      · cases h
      · split at h <;> cases h
        exact .none rfl
  case d12 => split at h <;> cases h <;> exact .one _ _ rfl
  case wp1 =>
    split at h
    · exact eq_of_afterPhase_go h ▸ .none rfl
    · cases h
      exact .none rfl
  case wp3 =>
    unfold dmaIrqWait at h
    split at h
    · cases h
    · cases h
    next hw => exact eq_of_afterPhase_go h ▸ .none (regFile_irqWait hw)
    next hw =>
      cases h
      exact .none (regFile_irqWait hw)
  case wp5 =>
    unfold dmaAck at h
    dsimp only at h
    split at h
    · exact eq_of_afterPhase_go h ▸ .one _ _ rfl
    · cases h
      exact .one _ _ rfl
  case pd1 => split at h <;> cases h <;> exact .none rfl
  case back => cases h
  case d11 => cases h; exact .none rfl
  case wp2 => cases h; exact .none rfl
  case wp4 => cases h; exact .none rfl
  all_goals
    cases h
    exact .one _ _ rfl

/-! ## Frames -/

/-- What one step of command `i` leaves: beside its own channel it writes the parts its rule names, and of the register
spaces at most one register. -/
structure CommandFrame (i : Instr) (s t : State) : Prop where
  parts : writesOnly i s t
  regs : WritesRegister s t

theorem linesKeptBut_setChan {own : List Space} {s t : State} (c : Channel) (x : Chan) (h : linesKeptBut own s t) :
    linesKeptBut own s (t.setChan c x) := fun l hl => by
  have hline : (t.setChan c x).line l = t.line l := by cases c <;> rfl
  rw [hline, State.level_setChan]
  exact h l hl

/-! ### Writing the own channel last -/

theorem writesOnlyTx_setChan {i : Instr} {s u : State} {y : Chan} (h : writesOnlyTx i s u) :
    writesOnlyTx i s (u.setChan .tx y) := by
  cases i with
  | dmaOpen _ | dmaRead _ | codecEncode _ | codecDecode _ | codecCrc _ | txInit | txSetMtu =>
    exact congrArg (fun t : State => { t with chTx := y }) h
  | dmaWrite _ _ _ | dmaClose _ | txReset | txWrite | txClose =>
    exact ⟨congrArg (fun t : State => { t with chTx := y }) h.1, linesKeptBut_setChan .tx y h.2⟩
  | _ => exact h

theorem writesOnlyRx_setChan {i : Instr} {s u : State} {y : Chan} (h : writesOnlyRx i s u) :
    writesOnlyRx i s (u.setChan .rx y) := by
  cases i with
  | dmaOpen _ | dmaWrite _ _ _ | codecEncode _ | codecDecode _ | codecCrc _ | rxInit | rxReceive | rxRead =>
    exact congrArg (fun t : State => { t with chRx := y }) h
  | dmaRead _ | dmaClose _ | rxReset | rxStart | rxStop | rxClose =>
    exact ⟨congrArg (fun t : State => { t with chRx := y }) h.1, linesKeptBut_setChan .rx y h.2⟩
  | _ => exact h

theorem writesOnlyBus_setChan {i : Instr} {s u : State} {y : Chan} (h : writesOnlyBus i s u) :
    writesOnlyBus i s (u.setChan .bus y) := by
  cases i with
  | regRead _ | irqMask _ | irqWait _ => exact congrArg (fun t : State => { t with chBus := y }) h
  | irqUnmask _ => exact ⟨congrArg (fun t : State => { t with chBus := y }) h.1, linesKeptBut_setChan .bus y h.2⟩
  | regWrite sp =>
    cases sp <;> exact ⟨congrArg (fun t : State => { t with chBus := y }) h.1, linesKeptBut_setChan .bus y h.2⟩
  | _ => exact h

/-- What a step may write of its channel is no part of what it may write beside it. -/
theorem writesOnly_setChan {i : Instr} {s u : State} {y : Chan} (h : writesOnly i s u)
    (hy : y = (u.chan i.channel).stepped y) : writesOnly i s (u.setChan i.channel y) := by
  obtain ⟨hchan, hparts⟩ := h
  refine ⟨?_, ?_⟩
  · rw [State.chan_setChan_same]
    rw [hchan] at hy
    exact hy
  · generalize i.channel = c at hparts ⊢
    cases c with
    | tx => exact writesOnlyTx_setChan hparts
    | rx => exact writesOnlyRx_setChan hparts
    | bus => exact writesOnlyBus_setChan hparts

namespace CommandFrame

variable {i : Instr} {s u : State}

/-- A step may change nothing: a wait that is not enabled, or a check before the first access. -/
theorem refl (i : Instr) (s : State) : CommandFrame i s s where
  parts := by
    cases i with
    | regRead sp => exact ⟨rfl, rfl⟩
    | regWrite sp => cases sp <;> exact ⟨rfl, rfl, linesKeptBut_of_eq rfl⟩
    | irqMask sp => cases sp <;> exact ⟨rfl, rfl⟩
    | irqUnmask sp => exact ⟨rfl, rfl, linesKeptBut_of_eq rfl⟩
    | irqWait sp => cases sp <;> exact ⟨rfl, rfl⟩
    | dmaOpen e => cases e <;> exact ⟨rfl, rfl⟩
    | dmaWrite e cyc cnf =>
      cases e
      · exact ⟨rfl, rfl, linesKeptBut_of_eq rfl⟩
      · exact ⟨rfl, rfl⟩
    | dmaRead e =>
      cases e
      · exact ⟨rfl, rfl⟩
      · exact ⟨rfl, rfl, linesKeptBut_of_eq rfl⟩
    | dmaClose e => cases e <;> exact ⟨rfl, rfl, linesKeptBut_of_eq rfl⟩
    | codecEncode e => cases e <;> exact ⟨rfl, rfl⟩
    | codecDecode e => cases e <;> exact ⟨rfl, rfl⟩
    | codecCrc e => cases e <;> exact ⟨rfl, rfl⟩
    | txInit | txSetMtu | rxInit | rxReceive | rxRead => exact ⟨rfl, rfl⟩
    | txReset | txWrite | txClose | rxReset | rxStart | rxStop | rxClose => exact ⟨rfl, rfl, linesKeptBut_of_eq rfl⟩
  regs := .none rfl

/-- A step that writes its channel last. -/
theorem setChan {y : Chan} (h : CommandFrame i s u) (hy : y = (u.chan i.channel).stepped y) :
    CommandFrame i s (u.setChan i.channel y) where
  parts := writesOnly_setChan h.parts hy
  regs := h.regs.congr (State.regFile_setChan _ _ _)

variable {l : Label} {x : Locals} {st : Status} {vs : List U32}

theorem goto (h : CommandFrame i s u) : CommandFrame i s (u.goto i.channel l) := h.setChan rfl

theorem gotoWith (h : CommandFrame i s u) : CommandFrame i s (u.gotoWith i.channel l x) := h.setChan rfl

theorem finish (h : CommandFrame i s u) : CommandFrame i s (u.finish i.channel st vs) := h.setChan rfl

theorem raise (h : CommandFrame i s u) : CommandFrame i s (u.raise i.channel st) := h.finish

end CommandFrame

open CommandFrame (goto gotoWith finish raise)

/-! ## BUS commands (R410 to R414) -/

theorem execRegRead_frame (sp : Space) (s : State) : leadsTo (CommandFrame (.regRead sp) s) (execRegRead sp s) := by
  unfold execRegRead
  split
  · split
    · exact raise (.refl _ s)
    · exact finish (.refl _ s)
  · trivial

/-- The register that a REG.WRITE finds is of the space of the command. -/
theorem regWrite_frame (r : Reg) (v : U32) (s : State) : CommandFrame (.regWrite r.space) s (s.regWrite r v) where
  parts := by
    rcases r with ⟨e, k⟩ | k | k
    · cases e <;> exact ⟨rfl, rfl, linesKeptBut_regWrite _ s _ _⟩
    · exact ⟨rfl, rfl, linesKeptBut_regWrite _ s _ _⟩
    · exact ⟨rfl, rfl, linesKeptBut_regWrite _ s _ _⟩
  regs := .one r v rfl

theorem execRegWrite_frame (sp : Space) (s : State) :
    leadsTo (CommandFrame (.regWrite sp) s) (execRegWrite sp s) := by
  unfold execRegWrite
  split
  · split
    · exact raise (.refl _ s)
    next r hr =>
      obtain rfl := space_of_regAt hr
      exact finish (regWrite_frame r _ s)
  · trivial

theorem execIrqMask_frame (sp : Space) (s : State) : leadsTo (CommandFrame (.irqMask sp) s) (execIrqMask sp s) := by
  unfold execIrqMask
  split
  · exact finish ⟨by cases sp <;> exact ⟨rfl, rfl⟩, .none rfl⟩
  · trivial

theorem execIrqUnmask_frame (sp : Space) (s : State) :
    leadsTo (CommandFrame (.irqUnmask sp) s) (execIrqUnmask sp s) := by
  unfold execIrqUnmask
  split
  · exact finish ⟨⟨rfl, rfl, linesKeptBut_irqUnmask sp s⟩, .none rfl⟩
  · trivial

theorem irqWait_frame {s t : State} {sp : Space} {t0 T : Nat} {r : IrqResult}
    (h : s.irqWait sp t0 T = some (r, t)) : CommandFrame (.irqWait sp) s t where
  parts := by
    rcases State.irqWait_eq_some h with ⟨-, -, -, rfl⟩ | ⟨-, -, -, rfl⟩ | ⟨-, -, -, rfl⟩
    · cases sp <;> exact ⟨rfl, rfl⟩
    · exact (CommandFrame.refl _ _).parts
    · exact (CommandFrame.refl _ _).parts
  regs := .none (regFile_irqWait h)

theorem execIrqWait_frame (sp : Space) (s : State) : leadsTo (CommandFrame (.irqWait sp) s) (execIrqWait sp s) := by
  unfold execIrqWait
  split
  · split
    · exact .refl _ s
    next h => exact raise (irqWait_frame h)
    next h => exact finish (irqWait_frame h)
    next h => exact finish (irqWait_frame h)
  · trivial

/-! ## DMA commands (R502, R503, R506, R508) -/

/-- What opening an engine leaves, whatever its status. -/
theorem openEngine_cases {e : Engine} {s t : State} {st : Status} (h : s.openEngine e = (st, t)) :
    t = s ∨ t = s.setOpen e true := by
  unfold State.openEngine at h
  split at h
  · cases h; exact .inl rfl
  · split at h
    · cases h; exact .inl rfl
    · split at h <;> cases h
      · exact .inl rfl
      · exact .inr rfl

theorem openEngine_frame {e : Engine} {s t : State} {st : Status} (h : s.openEngine e = (st, t)) :
    CommandFrame (.dmaOpen e) s t := by
  rcases openEngine_cases h with rfl | rfl
  · exact .refl _ _
  · cases e <;> exact ⟨⟨rfl, rfl⟩, .none rfl⟩

theorem execDmaOpen_frame (e : Engine) (s : State) : leadsTo (CommandFrame (.dmaOpen e) s) (execDmaOpen e s) := by
  unfold execDmaOpen
  split
  · split
    next h => exact finish (openEngine_frame h)
    next h => exact raise (openEngine_frame h)
  · trivial

/-- A step of a DMA procedure as the body of a command that may write what the procedure writes. -/
theorem dmaCommand_frame {i : Instr} {e : Engine} (hc : i.channel = e.channel) (cyc cnf : Bool) (l : DmaLabel)
    (s : State) (hi : ∀ t, touchesDma e s t → writesOnly i s t) :
    leadsTo (CommandFrame i s) (dmaCommand e cyc cnf l s) := by
  unfold dmaCommand
  rw [← hc]
  dsimp only
  split
  next h =>
    have hk := dmaStep_keeps e l (dmaArgs (s.chan i.channel).opd cyc cnf (s.chan i.channel).loc.dma) s
    rw [h] at hk
    exact gotoWith ⟨hi _ hk.1, writesRegister_dmaStep h⟩
  next h =>
    obtain rfl := eq_of_dmaStep_ret h
    exact finish (.refl i _)
  next h =>
    obtain rfl := eq_of_dmaStep_ret h
    exact raise (.refl i _)
  · exact .refl i s

theorem writesOnly_dmaWrite {s t : State} (cyc cnf : Bool) (h : touchesDma .tx s t) :
    writesOnly (.dmaWrite .tx cyc cnf) s t := by
  obtain ⟨⟨d, ls, rfl⟩, hp, hl⟩ := h
  exact ⟨rfl, congrArg (fun x => { s with dtx := x, lines := ls }) hp, hl⟩

theorem writesOnly_dmaRead {s t : State} (h : touchesDma .rx s t) : writesOnly (.dmaRead .rx) s t := by
  obtain ⟨⟨d, ls, rfl⟩, hp, hl⟩ := h
  exact ⟨rfl, congrArg (fun x => { s with drx := x, lines := ls }) hp, hl⟩

theorem execDmaWrite_frame (e : Engine) (cyc cnf : Bool) (s : State) :
    leadsTo (CommandFrame (.dmaWrite e cyc cnf) s) (execDmaWrite e cyc cnf s) := by
  unfold execDmaWrite
  split
  · split
    · exact raise (.refl (.dmaWrite e cyc cnf) s)
    · cases e
      case tx => exact dmaCommand_frame rfl cyc cnf _ s fun t => writesOnly_dmaWrite cyc cnf
      case rx => contradiction
  · trivial

theorem execDmaRead_frame (e : Engine) (s : State) : leadsTo (CommandFrame (.dmaRead e) s) (execDmaRead e s) := by
  unfold execDmaRead
  split
  · split
    · exact raise (.refl (.dmaRead e) s)
    · split
      · exact raise (.refl (.dmaRead e) s)
      · cases e
        case tx => contradiction
        case rx => exact dmaCommand_frame rfl false true _ s fun t => writesOnly_dmaRead
  · trivial

theorem execDmaClose_frame (e : Engine) (s : State) : leadsTo (CommandFrame (.dmaClose e) s) (execDmaClose e s) := by
  have hw : CommandFrame (.dmaClose e) s (s.regWrite (dReg e .control) 0#32) :=
    ⟨by cases e <;> exact ⟨rfl, rfl, linesKeptBut_regWrite _ s _ _⟩, .one _ _ rfl⟩
  have hm : CommandFrame (.dmaClose e) s ((s.irqMask e.space).setOpen e false) :=
    ⟨by cases e <;> exact ⟨rfl, rfl, linesKeptBut_setLine _ _ s⟩, .none (by cases e <;> rfl)⟩
  unfold execDmaClose
  split
  · split
    · exact raise (.refl (.dmaClose e) s)
    · split
      · exact finish (.refl (.dmaClose e) s)
      · exact goto hw
  · exact finish hm
  · trivial

/-! ## CODEC commands (R606 to R608) -/

theorem bufWrite_frame (e : Engine) (o : Nat) (bs : List Byte) (s : State) :
    CommandFrame (.codecEncode e) s (s.bufWrite e o bs) := by
  cases e <;> exact ⟨⟨rfl, rfl⟩, .none rfl⟩

theorem execCodecEncode_frame (e : Engine) (s : State) :
    leadsTo (CommandFrame (.codecEncode e) s) (execCodecEncode e s) := by
  have hs := CommandFrame.refl (.codecEncode e) s
  unfold execCodecEncode
  split
  · unfold encodeFetch
    dsimp only
    split
    · exact raise hs
    · split
      · exact raise hs
      · split
        · exact raise hs
        · exact gotoWith hs
  · exact finish (bufWrite_frame e _ _ s)
  · trivial

/-- A read of a buffer notes a race and nothing else (R212). -/
theorem bufReadNote_frame (e : Engine) (o n : Nat) (s : State) :
    CommandFrame (.codecDecode e) s (s.bufReadNote e o n) ∧ CommandFrame (.codecCrc e) s (s.bufReadNote e o n) := by
  cases e <;> exact ⟨⟨⟨rfl, rfl⟩, .none rfl⟩, ⟨⟨rfl, rfl⟩, .none rfl⟩⟩

theorem execCodecDecode_frame (e : Engine) (s : State) :
    leadsTo (CommandFrame (.codecDecode e) s) (execCodecDecode e s) := by
  have hs := CommandFrame.refl (.codecDecode e) s
  have hn := fun o n => (bufReadNote_frame e o n s).1
  unfold execCodecDecode
  split
  · unfold decodeFetch
    dsimp only
    split
    · exact raise hs
    · split
      · exact raise hs
      · split
        · exact finish (hn _ _)
        · exact gotoWith (hn _ _)
  · exact finish (hn _ _)
  · trivial

theorem execCodecCrc_frame (e : Engine) (s : State) : leadsTo (CommandFrame (.codecCrc e) s) (execCodecCrc e s) := by
  have hs := CommandFrame.refl (.codecCrc e) s
  unfold execCodecCrc
  dsimp only
  split
  · split
    · exact raise hs
    · split
      · exact raise hs
      · exact finish (bufReadNote_frame e _ _ s).2
  · trivial

/-! ## TX commands (R701 to R705, R720) -/

theorem execTxInit_frame (s : State) : leadsTo (CommandFrame .txInit s) (execTxInit s) := by
  unfold execTxInit
  split
  · split
    next h =>
      refine finish ?_
      rcases openEngine_cases h with rfl | rfl <;> exact ⟨⟨rfl, rfl⟩, .none rfl⟩
    next h =>
      refine raise ?_
      rcases openEngine_cases h with rfl | rfl <;> exact ⟨⟨rfl, rfl⟩, .none rfl⟩
  · trivial

theorem execTxClose_frame (s : State) : leadsTo (CommandFrame .txClose s) (execTxClose s) := by
  unfold execTxClose
  split
  · split
    · exact goto ⟨⟨rfl, rfl, linesKeptBut_regWrite _ s _ _⟩, .one _ _ rfl⟩
    · exact finish ⟨⟨rfl, rfl, linesKeptBut_of_eq rfl⟩, .none rfl⟩
  · exact finish ⟨⟨rfl, rfl, linesKeptBut_setLine _ _ s⟩, .none rfl⟩
  · trivial

theorem execTxSetMtu_frame (s : State) : leadsTo (CommandFrame .txSetMtu s) (execTxSetMtu s) := by
  unfold execTxSetMtu
  split
  · split
    · exact raise (.refl _ s)
    · exact finish ⟨⟨rfl, rfl⟩, .none rfl⟩
  · trivial

theorem execTxReset_frame (s : State) : leadsTo (CommandFrame .txReset s) (execTxReset s) := by
  have hw : ∀ k v, CommandFrame .txReset s (s.regWrite (.mtx k) v) := fun k v =>
    ⟨⟨rfl, rfl, linesKeptBut_regWrite _ s _ _⟩, .one _ _ rfl⟩
  unfold execTxReset
  split
  · split
    · exact raise (.refl _ s)
    · exact goto (.refl _ s)
  · exact goto (hw _ _)
  · exact goto (hw _ _)
  · exact finish (hw _ _)
  · trivial

/-! ### TX.WRITE -/

theorem txCheck_frame (s : State) : CommandFrame .txWrite s (txCheck s) := by
  have hs := CommandFrame.refl .txWrite s
  unfold txCheck
  dsimp only
  split
  · exact raise hs
  · split
    · exact raise hs
    · split
      · exact raise hs
      · exact gotoWith hs

theorem txPlan_frame (s : State) : CommandFrame .txWrite s (txPlan s) := by
  unfold txPlan
  dsimp only
  split
  · exact raise ⟨⟨rfl, rfl, linesKeptBut_of_eq rfl⟩, .none rfl⟩
  · exact gotoWith ⟨⟨rfl, rfl, linesKeptBut_of_eq rfl⟩, .none rfl⟩

theorem encodeTx_frame (o : Nat) (p : List Byte) (m k f n z : U32) (s : State) :
    CommandFrame .txWrite s (s.encode .tx o p m k f n z) :=
  ⟨⟨rfl, rfl, linesKeptBut_of_eq rfl⟩, .none rfl⟩

theorem txStage_frame (s : State) : CommandFrame .txWrite s (txStage s) := by
  have hb : CommandFrame .txWrite s (txBuild s) := encodeTx_frame ..
  unfold txStage
  dsimp only
  split
  · exact gotoWith hb
  · exact gotoWith hb

theorem txFlushed_frame {s u : State} (h : CommandFrame .txWrite s u) : CommandFrame .txWrite s (txFlushed u) := by
  unfold txFlushed
  dsimp only
  split
  · exact gotoWith h
  · split
    · exact gotoWith h
    · exact gotoWith h

theorem writesOnly_txWrite {s t : State} (h : touchesDma .tx s t) : writesOnly .txWrite s t := by
  obtain ⟨⟨d, ls, rfl⟩, hp, hl⟩ := h
  exact ⟨rfl, congrArg (fun x => { s with dtx := x, lines := ls }) hp, hl⟩

theorem txFlush_frame {mk : DmaLabel → Label} {k : State → State} (l : DmaLabel) (s : State)
    (hk : CommandFrame .txWrite s (k s)) : CommandFrame .txWrite s (txFlush mk k l s) := by
  unfold txFlush
  split
  next h =>
    have hd := dmaStep_keeps .tx l s.chTx.loc.dma s
    rw [h] at hd
    exact gotoWith ⟨writesOnly_txWrite hd.1, writesRegister_dmaStep h⟩
  next h => exact (eq_of_dmaStep_ret h).symm ▸ hk
  next h =>
    obtain rfl := eq_of_dmaStep_ret h
    exact raise (.refl _ _)
  · exact .refl _ s

theorem txPause_frame (s : State) : CommandFrame .txWrite s (txPause s) := by
  unfold txPause
  split
  · exact goto (.refl _ s)
  · exact .refl _ s

theorem execTxWrite_frame (s : State) : leadsTo (CommandFrame .txWrite s) (execTxWrite s) := by
  have hs := CommandFrame.refl .txWrite s
  unfold execTxWrite
  split
  · exact txCheck_frame s
  · exact txPlan_frame s
  · exact txStage_frame s
  · exact txFlush_frame _ s (goto hs)
  · exact gotoWith (encodeTx_frame ..)
  · exact txFlush_frame _ s (txFlushed_frame hs)
  · exact gotoWith ⟨⟨rfl, rfl, linesKeptBut_of_eq rfl⟩, .none rfl⟩
  · exact txPause_frame s
  · exact gotoWith (encodeTx_frame ..)
  · exact txFlush_frame _ s (goto hs)
  · exact finish hs
  · trivial

/-! ## RX commands (R801 to R805) -/

theorem execRxInit_frame (s : State) : leadsTo (CommandFrame .rxInit s) (execRxInit s) := by
  unfold execRxInit
  split
  · split
    · exact raise (.refl _ s)
    · split
      next h =>
        refine finish ?_
        rcases openEngine_cases h with rfl | rfl <;> exact ⟨⟨rfl, rfl⟩, .none rfl⟩
      next h =>
        refine raise ?_
        rcases openEngine_cases h with rfl | rfl <;> exact ⟨⟨rfl, rfl⟩, .none rfl⟩
  · trivial

theorem execRxClose_frame (s : State) : leadsTo (CommandFrame .rxClose s) (execRxClose s) := by
  have hs := CommandFrame.refl .rxClose s
  unfold execRxClose
  split
  · split
    · exact finish hs
    · exact goto hs
  · exact goto ⟨⟨rfl, rfl, linesKeptBut_of_eq rfl⟩, .none rfl⟩
  · split
    · exact hs
    · exact goto hs
  · refine goto ⟨⟨rfl, rfl, fun l hl => ?_⟩, .none rfl⟩
    exact linesKeptBut_setLine .mrx _ s l fun h => hl (by simp_all)
  · split
    · exact goto ⟨⟨rfl, rfl, linesKeptBut_regWrite _ s _ _⟩, .one _ _ rfl⟩
    · exact goto hs
  · split
    · refine goto ⟨⟨rfl, rfl, fun l hl => ?_⟩, .none rfl⟩
      exact linesKeptBut_setLine .drx _ s l fun h => hl (by simp_all)
    · exact goto hs
  · exact finish ⟨⟨rfl, rfl, linesKeptBut_of_eq rfl⟩, .none rfl⟩
  · trivial

theorem rxReset_regWrite_frame (k : RReg) (v : U32) (s : State) :
    CommandFrame .rxReset s (s.regWrite (.mrx k) v) :=
  ⟨⟨rfl, rfl, linesKeptBut_regWrite _ s _ _⟩, .one _ _ rfl⟩

theorem rxWriteCoef_frame (s : State) : CommandFrame .rxReset s (rxWriteCoef s) := by
  unfold rxWriteCoef
  dsimp only
  split
  · exact gotoWith (rxReset_regWrite_frame ..)
  · exact goto (rxReset_regWrite_frame ..)

theorem execRxReset_frame (s : State) : leadsTo (CommandFrame .rxReset s) (execRxReset s) := by
  have hs := CommandFrame.refl .rxReset s
  have hw := fun k v => rxReset_regWrite_frame k v s
  unfold execRxReset
  dsimp only
  split
  · split
    · exact raise hs
    · split
      · exact raise hs
      · exact goto hs
  · exact goto (hw _ _)
  · exact goto (hw _ _)
  · exact goto (hw _ _)
  · exact goto (hw _ _)
  · exact goto (hw _ _)
  · exact goto (hw _ _)
  · exact gotoWith (hw _ _)
  · exact rxWriteCoef_frame s
  · exact goto (hw _ _)
  · exact goto (hw _ _)
  · exact finish ⟨⟨rfl, rfl, linesKeptBut_of_eq rfl⟩, .none rfl⟩
  · trivial

theorem execRxStart_frame (s : State) : leadsTo (CommandFrame .rxStart s) (execRxStart s) := by
  unfold execRxStart
  split
  · split
    · exact raise (.refl _ s)
    · exact finish ⟨⟨rfl, rfl, linesKeptBut_regWrite _ s _ _⟩, .one _ _ rfl⟩
  · trivial

theorem execRxStop_frame (s : State) : leadsTo (CommandFrame .rxStop s) (execRxStop s) := by
  unfold execRxStop
  split
  · split
    · exact raise (.refl _ s)
    · exact goto ⟨⟨rfl, rfl, linesKeptBut_regWrite _ s _ _⟩, .one _ _ rfl⟩
  · exact finish ⟨⟨rfl, rfl, linesKeptBut_of_eq rfl⟩, .none rfl⟩
  · trivial

/-! ### RX.RECEIVE (R810 to R815) -/

theorem endCycle_frame (ph : RxPhase) (st : Status) (vs : List U32) (s : State) :
    CommandFrame .rxReceive s (s.endCycle ph st vs) :=
  finish ⟨⟨rfl, rfl⟩, .none rfl⟩

theorem rvCheck_frame (s : State) : CommandFrame .rxReceive s (rvCheck s) := by
  have hs := CommandFrame.refl .rxReceive s
  unfold rvCheck
  split
  · exact raise hs
  · split
    · exact raise hs
    · exact goto hs

theorem rvWait_frame (p : Bool) (onWake onExpire : Label) (s : State) :
    CommandFrame .rxReceive s (rvWait p onWake onExpire s) := by
  have hs := CommandFrame.refl .rxReceive s
  unfold rvWait
  split
  · split
    · exact goto hs
    · exact hs
  · split
    · exact goto hs
    · exact hs
  · exact hs

theorem rvFirst_frame (s : State) : CommandFrame .rxReceive s (rvFirst s) := by
  unfold rvFirst
  split
  · exact endCycle_frame ..
  · exact goto (.refl _ s)

theorem rvValidate_frame (s : State) : CommandFrame .rxReceive s (rvValidate s) := by
  unfold rvValidate
  dsimp only
  split
  · exact goto ⟨⟨rfl, rfl⟩, .none rfl⟩
  · exact finish ⟨⟨rfl, rfl⟩, .none rfl⟩

theorem rvLoop_frame (s : State) : CommandFrame .rxReceive s (rvLoop s) := by
  unfold rvLoop
  split
  · exact endCycle_frame ..
  · split
    · exact endCycle_frame ..
    · exact gotoWith (.refl _ s)

theorem rvLast_frame (s : State) : CommandFrame .rxReceive s (rvLast s) := by
  unfold rvLast
  split
  · exact endCycle_frame ..
  · exact endCycle_frame ..

theorem execRxReceive_frame (s : State) : leadsTo (CommandFrame .rxReceive s) (execRxReceive s) := by
  unfold execRxReceive
  split
  · exact rvCheck_frame s
  · split
    · exact .refl _ s
    · exact goto (.refl _ s)
  · exact goto ⟨⟨rfl, rfl⟩, .none rfl⟩
  · exact gotoWith ⟨⟨rfl, rfl⟩, .none rfl⟩
  · exact rvWait_frame _ _ _ s
  · exact rvFirst_frame s
  · exact rvValidate_frame s
  · exact rvLoop_frame s
  · exact rvWait_frame _ _ _ s
  · exact rvLast_frame s
  · trivial

/-! ### RX.READ (R820 to R822) -/

theorem rdStart_frame (s : State) : CommandFrame .rxRead s (rdStart s) := by
  unfold rdStart
  dsimp only
  split
  · exact raise (.refl _ s)
  · exact gotoWith (.refl _ s)

theorem rdNext_frame {s u : State} (x : Locals) (h : CommandFrame .rxRead s u) : CommandFrame .rxRead s (rdNext x u) :=
  gotoWith h

/-- The parts that an entry's step writes, one after another. -/
theorem rdParts_frame (m : Memory) (b : Bool) (vs : Sparse Verdict) (s : State) :
    CommandFrame .rxRead s { s with hostMem := m, faultBufRace := b, rx := { s.rx with crcStatus := vs } } :=
  ⟨⟨rfl, rfl⟩, .none rfl⟩

theorem rdLog_frame {s u : State} (v : Event) (h : CommandFrame .rxRead s u) :
    CommandFrame .rxRead s (u.logEvent v) where
  parts := by
    obtain ⟨hchan, hparts⟩ := h.parts
    exact ⟨hchan, congrArg (fun t : State => t.logEvent v) hparts⟩
  regs := h.regs.congr rfl

theorem rdCopy_frame (x : Locals) (o : Nat) (h : Hdr) (s : State) :
    CommandFrame .rxRead s (rdCopy x o h (s.bufReadNote .rx o hdrSize)) := by
  unfold rdCopy
  dsimp only
  split
  · exact rdNext_frame _ (rdParts_frame _ _ _ s)
  · exact rdNext_frame _ (rdLog_frame _ (rdParts_frame _ _ _ s))

theorem rdEntry_frame (s : State) : CommandFrame .rxRead s (rdEntry s) := by
  unfold rdEntry
  dsimp only
  split
  · exact rdNext_frame _ (rdParts_frame _ _ _ s)
  · split
    · exact rdNext_frame _ (rdParts_frame _ _ _ s)
    · exact rdCopy_frame _ _ _ s

theorem execRxRead_frame (s : State) : leadsTo (CommandFrame .rxRead s) (execRxRead s) := by
  have hs := CommandFrame.refl .rxRead s
  unfold execRxRead
  split
  · split
    · exact raise hs
    · exact goto hs
  · split
    · exact hs
    · exact goto hs
  · exact rdStart_frame s
  · exact rdEntry_frame s
  · exact finish ⟨⟨rfl, rfl⟩, .none rfl⟩
  · trivial

/-! ## Every command -/

/-- What one step of any command may write (R180, R402, R905). -/
theorem exec_frame {i : Instr} {s t : State} (h : exec i s = .next t) : CommandFrame i s t := by
  refine leadsTo_of_next ?_ h
  cases i with
  | regRead sp => exact execRegRead_frame sp s
  | regWrite sp => exact execRegWrite_frame sp s
  | irqMask sp => exact execIrqMask_frame sp s
  | irqUnmask sp => exact execIrqUnmask_frame sp s
  | irqWait sp => exact execIrqWait_frame sp s
  | dmaOpen e => exact execDmaOpen_frame e s
  | dmaWrite e cyc cnf => exact execDmaWrite_frame e cyc cnf s
  | dmaRead e => exact execDmaRead_frame e s
  | dmaClose e => exact execDmaClose_frame e s
  | codecEncode e => exact execCodecEncode_frame e s
  | codecDecode e => exact execCodecDecode_frame e s
  | codecCrc e => exact execCodecCrc_frame e s
  | txInit => exact execTxInit_frame s
  | txReset => exact execTxReset_frame s
  | txWrite => exact execTxWrite_frame s
  | txClose => exact execTxClose_frame s
  | txSetMtu => exact execTxSetMtu_frame s
  | rxInit => exact execRxInit_frame s
  | rxReset => exact execRxReset_frame s
  | rxStart => exact execRxStart_frame s
  | rxStop => exact execRxStop_frame s
  | rxReceive => exact execRxReceive_frame s
  | rxRead => exact execRxRead_frame s
  | rxClose => exact execRxClose_frame s

/-- Settles O59: the frame of each command, from the frames of the operations its step is made of. -/
theorem commandWritesOnlyItsOwn : Obligations.CommandWritesOnlyItsOwn := by
  unfold Obligations.CommandWritesOnlyItsOwn
  exact fun _ _ _ h => (exec_frame h).parts

end Sys2Proof.Machine
end

section
/-! SUPPORT. Every register write and every controller step keeps the registers and queues legal (R131, R132, R140 to R142,
R540 to R545, R851); from this, with one register write at most per step, every move does. -/

namespace Sys2Proof.Machine

/-! ## Register bits -/

theorem toNat_and_le_left (v w : U32) : (v &&& w).toNat ≤ v.toNat := by
  rw [BitVec.toNat_and]
  exact Nat.and_le_left

theorem toNat_and_le_right (v w : U32) : (v &&& w).toNat ≤ w.toNat := by
  rw [BitVec.toNat_and]
  exact Nat.and_le_right

/-- The two bits that a register with the mask 3 defines. -/
theorem toNat_and_three (v : U32) : (v &&& 0x3#32).toNat < 4 := Nat.lt_succ_of_le (toNat_and_le_right v _)

/-- The one bit that a register with the mask 1 defines. -/
theorem toNat_and_one (v : U32) : (v &&& 0x1#32).toNat < 2 := Nat.lt_succ_of_le (toNat_and_le_right v _)

theorem toNat_bitMask_le (i : Nat) : (bitMask i).toNat ≤ 2 ^ i := by
  rw [bitMask, BitVec.toNat_shiftLeft]
  refine (Nat.mod_le _ _).trans ?_
  simp [Nat.shiftLeft_eq]

/-- Setting a bit below a bound keeps the register below it. -/
theorem toNat_setBit_lt {r : U32} {i n : Nat} (hr : r.toNat < 2 ^ n) (hi : i < n) : (setBit r i).toNat < 2 ^ n := by
  rw [setBit, BitVec.toNat_or]
  exact Nat.or_lt_two_pow hr ((toNat_bitMask_le i).trans_lt (Nat.pow_lt_pow_right (by omega) hi))

theorem getLsbD_and_three (v : U32) : (v &&& 0x3#32).getLsbD 0 = v.getLsbD 0 := by simp

theorem getLsbD_and_one (v : U32) : (v &&& 0x1#32).getLsbD 0 = v.getLsbD 0 := by simp

/-! ## A controller under each of its operations -/

/-- A record of a queue behind its head, after one was appended. -/
theorem mem_tail_append_singleton {α : Type} {q : List α} {x y : α} (h : y ∈ (q ++ [x]).tail) :
    y ∈ q.tail ∨ y = x := by
  cases q with
  | nil => cases h
  | cons z q => exact (List.mem_append.1 h).imp id List.mem_singleton.1

namespace Dmac.Legal

variable {d : Dmac} {c : Config}

/-- A queue that only lost records. -/
theorem dropHead (h : d.Legal c) {r : DmaRec} {rest : List DmaRec} (hq : d.queue = r :: rest) :
    ({ d with queue := rest } : Dmac).Legal c :=
  { h with
    queueLength := by
      have hl := h.queueLength
      rw [hq, List.length_cons] at hl
      exact Nat.le_of_succ_le hl
    queueIds := fun x hx => h.queueIds x (hq ▸ List.mem_cons_of_mem r hx)
    onlyHeadStarted := fun x hx => h.onlyHeadStarted x (by
      rw [hq]
      exact List.mem_of_mem_tail hx)
    abortedWhenDisabled := fun hd => by
      have hn := h.abortedWhenDisabled hd
      rw [hq] at hn
      cases hn }

/-- A phase has a bit of `IRQ_PENDING` that the register defines (R131). -/
theorem signal (h : d.Legal c) (ph : Phase) : (d.signal ph).Legal c := by
  unfold Dmac.signal
  split
  · exact h
  · exact { h with irqPending := toNat_setBit_lt (n := 2) h.irqPending (by cases ph <;> decide) }

/-- Starting the head marks it, and it alone (R542). -/
theorem start (h : d.Legal c) {r : DmaRec} {rest : List DmaRec} (hq : d.queue = r :: rest) :
    (d.start r rest).Legal c := by
  have hs : ({ d with queue := { r with started := true } :: rest } : Dmac).Legal c :=
    { h with
      queueLength := by simpa [hq] using h.queueLength
      queueIds := by
        have hi := h.queueIds
        rw [hq, List.forall_mem_cons] at hi
        exact List.forall_mem_cons.2 hi
      onlyHeadStarted := fun x hx => h.onlyHeadStarted x (by
        rw [hq]
        exact hx)
      abortedWhenDisabled := fun hd => by
        have hn := h.abortedWhenDisabled hd
        rw [hq] at hn
        cases hn }
  exact hs.signal .sot

/-- The done bit of a legal id lies inside the bitmap (R131). -/
theorem setDone (h : d.Legal c) {i : Nat} (hi : i < c.numTransferIds) :
    ({ d with transferDone := setBit d.transferDone i } : Dmac).Legal c :=
  { h with transferDone := toNat_setBit_lt h.transferDone hi }

theorem complete (h : d.Legal c) {r : DmaRec} {rest : List DmaRec} (hq : d.queue = r :: rest) :
    (d.complete r rest).Legal c := by
  have hr : r.id.toNat < c.numTransferIds := h.queueIds r (by rw [hq]; exact List.mem_cons_self)
  have hs : ∀ ph, (d.signal ph).queue = d.queue := fun ph => by
    unfold Dmac.signal
    split <;> rfl
  have hd := (h.signal .eot).setDone hr
  have hqd : (d.signal .eot).queue = r :: rest := by rw [hs, hq]
  unfold Dmac.complete
  dsimp only
  cases r.cyclic with
  | true =>
    simp only [if_true]
    rw [← hqd]
    exact hd
  | false => exact hd.dropHead hqd

/-- A submit appends a record that is not started, with a legal id, where there is room (R541). -/
theorem submit (h : d.Legal c) (e : Engine) : (d.submit c e).Legal c := by
  unfold Dmac.submit
  split
  · exact h
  next hc =>
    obtain ⟨hen, hlen⟩ := not_or.1 hc
    have hpos : 0 < c.numTransferIds := Nat.zero_lt_of_lt h.transferId
    exact
      { h with
        transferId := by
          have hm := Nat.mod_lt (d.transferId.toNat + 1) hpos
          simp only [u32, BitVec.toNat_ofNat]
          exact (Nat.mod_le _ _).trans_lt hm
        transferDone := (toNat_and_le_left _ _).trans_lt h.transferDone
        queueLength := by
          have hl := h.queueLength
          simp only [List.length_append, List.length_cons, List.length_nil]
          omega
        queueIds := by
          simp only [List.mem_append, List.mem_singleton]
          rintro r (hr | rfl)
          · exact h.queueIds r hr
          · exact h.transferId
        onlyHeadStarted := by
          intro r hr
          rcases mem_tail_append_singleton hr with hr | rfl
          · exact h.onlyHeadStarted r hr
          · rfl
        abortedWhenDisabled := fun hd => absurd hd hen }

/-- Clearing `ENABLE` empties the queue, setting it keeps it (R545). -/
theorem writeControl (h : d.Legal c) (v : U32) :
    ({ d with control := v &&& 0x3#32, queue := if v.getLsbD 0 then d.queue else [] } : Dmac).Legal c := by
  cases hv : v.getLsbD 0 with
  | true =>
    exact
      { h with
        control := toNat_and_three v
        abortedWhenDisabled := fun hd => absurd (hd.symm.trans ((getLsbD_and_three v).trans hv)) Bool.false_ne_true }
  | false =>
    exact
      { h with
        control := toNat_and_three v
        queueLength := Nat.zero_le _
        queueIds := fun _ hr => nomatch hr
        onlyHeadStarted := fun _ hr => nomatch hr
        abortedWhenDisabled := fun _ => rfl }

theorem write (h : d.Legal c) (e : Engine) (k : DReg) (v : U32) : (d.write c e k v).Legal c := by
  cases k with
  | irqMask => exact { h with irqMask := toNat_and_three v }
  | irqPending => exact { h with irqPending := (toNat_and_le_left _ _).trans_lt h.irqPending }
  | control => exact h.writeControl v
  | flags => exact { h with flags := toNat_and_three v }
  | transferSubmit =>
    simp only [Dmac.write]
    split
    · exact h.submit e
    · exact h
  | transferId | transferDone => exact h
  | destAddress | srcAddress | xLength | yLength | destStride | srcStride => exact { h with }

end Dmac.Legal

/-! ## The register spaces under a register write (R403) -/

namespace State.RegsLegal

variable {s t : State}

theorem congr (h : s.RegsLegal) (ht : t.regFile = s.regFile) : t.RegsLegal := by
  simp only [State.regFile, Prod.mk.injEq] at ht
  obtain ⟨hdtx, hdrx, hmtx, hmrx, hcfg⟩ := ht
  exact
    { dtx := by rw [hdtx, hcfg]; exact h.dtx
      drx := by rw [hdrx, hcfg]; exact h.drx
      mtxReset := by rw [hmtx]; exact h.mtxReset
      mrxReset := by rw [hmrx]; exact h.mrxReset
      rxEnable := by rw [hmrx]; exact h.rxEnable
      bypassCoding := by rw [hmrx]; exact h.bypassCoding
      bypassEq := by rw [hmrx]; exact h.bypassEq
      rxqLength := by rw [hmrx, hcfg]; exact h.rxqLength
      rxqReset := by rw [hmrx]; exact h.rxqReset }

theorem setDmac (h : s.RegsLegal) (e : Engine) {d : Dmac} (hd : d.Legal s.cfg) : (s.setDmac e d).RegsLegal := by
  cases e
  case tx => exact { h with dtx := hd }
  case rx => exact { h with drx := hd }

theorem dmac (h : s.RegsLegal) (e : Engine) : (s.dmac e).Legal s.cfg := by
  cases e
  case tx => exact h.dtx
  case rx => exact h.drx

/-- `RXQ` changes within its depth, and holds nothing while the core is in reset (R142, R851). -/
theorem setRxq (h : s.RegsLegal) {q : List (U32 × List Byte)} (hl : q.length ≤ s.cfg.rxqDepth)
    (hr : s.mrx.reset.getLsbD 0 = true → q = []) : ({ s with mrx := { s.mrx with rxq := q } } : State).RegsLegal :=
  { h with
    rxqLength := hl
    rxqReset := hr }

theorem writeMtx (h : s.RegsLegal) (k : TReg) (v : U32) :
    ({ s with mtx := s.mtx.write k v } : State).RegsLegal := by
  cases k with
  | reset => exact { h with mtxReset := toNat_and_one v }
  | txSrcSel => exact { h with }

/-- Setting `RESET` of the RX IP core empties `RXQ` (R851). -/
theorem writeMrx (h : s.RegsLegal) (k : RReg) (v : U32) :
    ({ s with mrx := s.mrx.write k v } : State).RegsLegal := by
  cases k with
  | reset =>
    refine { h with mrxReset := toNat_and_one v, rxqLength := ?_, rxqReset := fun hr => ?_ }
    · simp only [ModemRx.write]
      split
      · exact Nat.zero_le _
      · exact h.rxqLength
    · have hv : v.getLsbD 0 = true := (getLsbD_and_one v).symm.trans hr
      simp only [ModemRx.write, hv, if_true]
  | rxEnable => exact { h with rxEnable := toNat_and_one v }
  | bypassCoding => exact { h with bypassCoding := toNat_and_one v }
  | bypassEq => exact { h with bypassEq := toNat_and_one v }
  | loopBw | eqGain | detThresh | payloadLen => exact { h with }
  | frCoef k => fin_cases k <;> exact { h with }

theorem regWrite (h : s.RegsLegal) (r : Reg) (v : U32) : (s.regWrite r v).RegsLegal := by
  refine congr (s := s.regStore r v) ?_ rfl
  cases r with
  | dmac e k => exact h.setDmac e ((h.dmac e).write e k v)
  | mtx k => exact h.writeMtx k v
  | mrx k => exact h.writeMrx k v

theorem writesRegister (h : s.RegsLegal) (ht : WritesRegister s t) : t.RegsLegal := by
  cases ht with
  | none hr => exact h.congr hr
  | one r v hr => exact (h.regWrite r v).congr hr

end State.RegsLegal

/-! ## The register spaces under every move -/

theorem regFile_wTimeout (s : State) : (wTimeout s).regFile = s.regFile := by
  unfold wTimeout
  split
  · dsimp only
    split <;> rfl
  · rfl

theorem regFile_wWoke (s : State) : (wWoke s).regFile = s.regFile := by
  unfold wWoke
  split
  · rfl
  · split
    · rfl
    · exact regFile_wTimeout s
    · rfl

theorem regFile_wWait (s : State) : (wWait s).regFile = s.regFile := by
  unfold wWait
  split
  · rfl
  next h => exact (regFile_irqWait h :)

/-- The worker's DMA read may write a register in a step that goes on; what follows its return writes none. -/
theorem writesRegister_wRead (l : DmaLabel) (s : State) : WritesRegister s (wRead l s) := by
  unfold wRead
  split
  next h => exact (writesRegister_dmaStep h).congr rfl
  next h => exact eq_of_dmaStep_ret h ▸ .none rfl
  next h => exact eq_of_dmaStep_ret h ▸ .none rfl
  next h => exact eq_of_dmaStep_ret h ▸ .none rfl
  · exact .none rfl

/-- Of the worker's steps only its DMA read writes registers (R830). -/
theorem writesRegister_workerStep (s : State) : WritesRegister s (workerStep s) := by
  unfold workerStep
  split
  · exact .none rfl
  · split <;> exact .none rfl
  · exact .none rfl
  · exact .none (regFile_wWait s)
  · exact .none (regFile_wWoke s)
  · unfold wLength
    dsimp only
    split <;> exact .none rfl
  · unfold wPlace
    split <;> exact .none rfl
  · exact writesRegister_wRead _ s
  · unfold wPublish
    split <;> exact .none rfl
  · exact .none rfl

/-- A controller's step starts its head, completes it or drops it (R540, R542, R543). -/
theorem dmacStep_regsLegal (e : Engine) {s : State} (h : s.RegsLegal) : (dmacStep e s).RegsLegal := by
  unfold dmacStep
  dsimp only
  split
  · exact h
  next r rest hq =>
    have hdrop : (dropWild e rest s).RegsLegal :=
      (h.setDmac e ((h.dmac e).dropHead hq)).congr rfl
    split
    · exact h
    · split
      · exact h.setDmac e ((h.dmac e).start hq)
      · cases e
        case tx =>
          dsimp only
          split
          · exact h
          · split
            · exact (h.setDmac .tx (h.dtx.complete hq)).congr rfl
            · exact hdrop
        case rx =>
          dsimp only
          split
          · exact h
          next hrxq =>
            split
            next f tail _ =>
              have hl := h.rxqLength
              rw [hrxq, List.length_cons] at hl
              have hm := h.setRxq (q := tail) (Nat.le_of_succ_le hl) fun hr => by
                rw [h.rxqReset hr] at hrxq
                cases hrxq
              refine (hm.setDmac .rx (h.drx.complete hq)).congr ?_
              dsimp only [completeRx]
              rw [State.scatter_frame]
              rfl
            · exact hdrop

theorem modemRxStep_regsLegal (len : U32) (f : List Byte) {s : State} (h : s.RegsLegal) :
    (modemRxStep len f s).RegsLegal := by
  unfold modemRxStep
  split
  next hc =>
    obtain ⟨-, hreset, hroom⟩ := hc
    exact h.setRxq (by simpa using hroom) fun hr => absurd (hreset.symm.trans hr) Bool.false_ne_true
  · exact h

theorem hostStep_regFile {a : HostAct} {s t : State} (h : hostStep a s = .next t) : t.regFile = s.regFile := by
  cases a with
  | writeArg c i v =>
    simp only [hostStep] at h
    split at h <;> cases h
    · rfl
    · exact State.regFile_setChan _ _ _
  | issue w =>
    cases h
    rcases s.issue_cases w with ⟨i, -, -, hi⟩ | ⟨st, hi⟩
    · rw [hi]
      exact State.regFile_setChan _ _ _
    · rw [hi]
      rfl
  | readReg r =>
    simp only [hostStep] at h
    split at h <;> cases h <;> rfl
  | readMem a n =>
    simp only [hostStep] at h
    split at h
    · cases h
      rfl
    · cases h
  | writeMem a bs =>
    simp only [hostStep] at h
    split at h
    · cases h
      rfl
    · cases h

theorem channelStep_writesRegister {c : Channel} {s t : State} (h : channelStep c s = .next t) : WritesRegister s t := by
  rcases channelStep_eq_next h with ⟨-, rfl⟩ | ⟨-, i, -, -, hi⟩
  · exact .none rfl
  · exact (exec_frame hi).regs

/-- The reset values are legal: the configuration stays, and it has a transfer id (R8, R1001). -/
theorem resetEvent_regsLegal {s : State} (h : s.RegsLegal) : s.resetEvent.RegsLegal := by
  have hpos : 0 < s.cfg.numTransferIds := Nat.zero_lt_of_lt h.dtx.transferId
  have hzero : (0#32 : U32).toNat < 2 := by decide
  have hd : ({} : Dmac).Legal s.cfg :=
    { irqMask := by decide
      irqPending := by decide
      control := by decide
      flags := by decide
      transferId := hpos
      transferDone := Nat.two_pow_pos _
      queueLength := Nat.zero_le _
      queueIds := fun _ hr => nomatch hr
      onlyHeadStarted := fun _ hr => nomatch hr
      abortedWhenDisabled := fun _ => rfl }
  exact
    { dtx := hd
      drx := hd
      mtxReset := hzero
      mrxReset := hzero
      rxEnable := hzero
      bypassCoding := hzero
      bypassEq := hzero
      rxqLength := Nat.zero_le _
      rxqReset := fun _ => rfl }

theorem moveBody_regsLegal {m : Move} {s t : State} (hs : s.RegsLegal) (h : moveBody m s = .next t) :
    t.RegsLegal := by
  cases m with
  | host a => exact hs.congr (hostStep_regFile h)
  | channel c p => exact (hs.congr (t := { s with pick := p }) rfl).writesRegister (channelStep_writesRegister h)
  | worker p =>
    cases h
    exact (hs.congr (t := { s with pick := p }) rfl).writesRegister (writesRegister_workerStep _)
  | dmac e =>
    cases h
    exact dmacStep_regsLegal e hs
  | modemRx len f =>
    cases h
    exact modemRxStep_regsLegal len f hs
  | modemTx =>
    cases h
    exact hs
  | clock =>
    cases h
    exact hs.congr rfl
  | reset =>
    cases h
    exact resetEvent_regsLegal hs

theorem act_regsLegal {m : Move} {s t : State} (hs : s.RegsLegal) (h : act m s = .next t) : t.RegsLegal := by
  obtain ⟨u, hu, rfl⟩ := act_eq_next h
  exact (moveBody_regsLegal hs hu).congr rfl

/-- Settles O28: taking the next move leaves the register spaces alone, and every move keeps them legal. -/
theorem registersStayLegal : Obligations.RegistersStayLegal := by
  unfold Obligations.RegistersStayLegal
  intro s t hs h
  obtain ⟨-, ha⟩ := step_eq_next h
  refine act_regsLegal (hs.congr ?_) ha
  rw [State.nextMove_frame]
  rfl

end Sys2Proof.Machine
end

section
/-! SUPPORT. What the commands of each channel leave alone, read off the frame of every command (R180, R905): the parts of
the other engine, and the parts that no command writes. -/

namespace Sys2Proof.Machine

variable {i : Instr} {s t : State}

/-- A TX command leaves the RX side, the host's memory and the model's own fields. -/
theorem writesOnlyTx_frame (h : writesOnlyTx i s t) :
    t = { t with
      chRx := s.chRx, chBus := s.chBus, issueStatus := s.issueStatus, openRx := s.openRx, bufRx := s.bufRx,
      hostMem := s.hostMem, drx := s.drx, mrx := s.mrx, rx := s.rx, worker := s.worker, timeMs := s.timeMs,
      faultDmaWild := s.faultDmaWild, cfg := s.cfg, script := s.script, pick := s.pick, draws := s.draws,
      epoch := s.epoch, hostGot := s.hostGot } := by
  cases i with
  | dmaOpen _ | dmaRead _ | codecEncode _ | codecDecode _ | codecCrc _ | txInit | txSetMtu => rw [h]
  | dmaWrite _ _ _ | dmaClose _ | txReset | txWrite | txClose => rw [h.1]
  | _ => exact False.elim h

/-- An RX command leaves the TX side and the model's own fields. -/
theorem writesOnlyRx_frame (h : writesOnlyRx i s t) :
    t = { t with
      chTx := s.chTx, chBus := s.chBus, issueStatus := s.issueStatus, openTx := s.openTx, bufTx := s.bufTx,
      dtx := s.dtx, mtx := s.mtx, txInited := s.txInited, cfgMtu := s.cfgMtu, packId := s.packId,
      timeMs := s.timeMs, faultDmaWild := s.faultDmaWild, cfg := s.cfg, script := s.script, pick := s.pick,
      draws := s.draws, epoch := s.epoch, hostGot := s.hostGot } := by
  cases i with
  | dmaOpen _ | dmaWrite _ _ _ | codecEncode _ | codecDecode _ | codecCrc _ | rxInit | rxReceive | rxRead => rw [h]
  | dmaRead _ | dmaClose _ | rxReset | rxStart | rxStop | rxClose => rw [h.1]
  | _ => exact False.elim h

/-- Only RX.RECEIVE spawns the worker (R811). -/
theorem writesOnlyRx_worker (h : writesOnlyRx i s t) (hi : i ≠ .rxReceive) : t.worker = s.worker := by
  cases i with
  | rxReceive => exact absurd rfl hi
  | dmaOpen _ | dmaWrite _ _ _ | codecEncode _ | codecDecode _ | codecCrc _ | rxInit | rxRead => rw [h]
  | dmaRead _ | dmaClose _ | rxReset | rxStart | rxStop | rxClose => rw [h.1]
  | _ => exact False.elim h

/-- A BUS command leaves all but its channel, the register spaces and the interrupt lines. -/
theorem writesOnlyBus_frame (h : writesOnlyBus i s t) :
    t = { s with chBus := t.chBus, dtx := t.dtx, drx := t.drx, mtx := t.mtx, mrx := t.mrx, lines := t.lines } := by
  cases i with
  | regRead _ | irqMask _ | irqWait _ => rw [h]
  | irqUnmask _ => rw [h.1]
  | regWrite sp => cases sp <;> rw [h.1]
  | _ => exact False.elim h

/-- A BUS command leaves the controllers, unless it is the host's register write to one (R411). -/
theorem writesOnlyBus_dmac (h : writesOnlyBus i s t) (e : Engine) (hi : i ≠ .regWrite e.space) :
    t.dmac e = s.dmac e := by
  cases i with
  | regRead _ | irqMask _ | irqWait _ => rw [h]; cases e <;> rfl
  | irqUnmask _ => rw [h.1]; cases e <;> rfl
  | regWrite sp => cases sp <;> cases e <;> first | exact absurd rfl hi | (rw [h.1]; rfl)
  | _ => exact False.elim h

/-- The parts that one step of a command may write, by its channel. -/
theorem exec_writesOnly (h : exec i s = .next t) :
    (i.channel = .tx ∧ writesOnlyTx i s t) ∨ (i.channel = .rx ∧ writesOnlyRx i s t) ∨
      (i.channel = .bus ∧ writesOnlyBus i s t) := by
  obtain ⟨-, hp⟩ := (exec_frame h).parts
  revert hp
  cases i.channel with
  | tx => exact fun hp => .inl ⟨rfl, hp⟩
  | rx => exact fun hp => .inr (.inl ⟨rfl, hp⟩)
  | bus => exact fun hp => .inr (.inr ⟨rfl, hp⟩)

/-- No command touches the issue status, the time, the wild fault or the model's own fields. -/
theorem exec_common_frame (h : exec i s = .next t) :
    t = { t with
      issueStatus := s.issueStatus, timeMs := s.timeMs, faultDmaWild := s.faultDmaWild, cfg := s.cfg,
      script := s.script, pick := s.pick, draws := s.draws, epoch := s.epoch, hostGot := s.hostGot } := by
  rcases exec_writesOnly h with ⟨-, h⟩ | ⟨-, h⟩ | ⟨-, h⟩
  · rw [writesOnlyTx_frame h]
  · rw [writesOnlyRx_frame h]
  · rw [writesOnlyBus_frame h]

/-- A step of a command on another channel leaves the receiver's state and the worker alone. -/
theorem exec_worker (h : exec i s = .next t) (hi : i ≠ .rxReceive) : t.worker = s.worker := by
  rcases exec_writesOnly h with ⟨-, h⟩ | ⟨-, h⟩ | ⟨-, h⟩
  · rw [writesOnlyTx_frame h]
  · exact writesOnlyRx_worker h hi
  · rw [writesOnlyBus_frame h]

/-- A command of another channel leaves a controller, unless it is the host's register write to it. -/
theorem exec_dmac_other {i : Instr} {s t : State} (h : exec i s = .next t) {e : Engine} (hc : i.channel ≠ e.channel)
    (hi : i ≠ .regWrite e.space) : t.dmac e = s.dmac e := by
  rcases exec_writesOnly h with ⟨hx, h⟩ | ⟨hx, h⟩ | ⟨hx, h⟩
  · cases e
    · exact absurd hx hc
    · rw [writesOnlyTx_frame h]
      rfl
  · cases e
    · rw [writesOnlyRx_frame h]
      rfl
    · exact absurd hx hc
  · exact writesOnlyBus_dmac h e hi

/-! ## What a DMA procedure leaves alone -/

theorem touchesDma.eq_frame {e : Engine} {s t : State} (h : touchesDma e s t) :
    t = { s with dtx := t.dtx, drx := t.drx, lines := t.lines } := by
  obtain ⟨d, ls, rfl⟩ := h.frame
  cases e <;> rfl

theorem touchesDma.dmac_other {e e' : Engine} {s t : State} (h : touchesDma e s t) (he : e' ≠ e) :
    t.dmac e' = s.dmac e' := by
  obtain ⟨d, ls, rfl⟩ := h.frame
  exact State.dmac_setDmac_other s e e' d he

/-! ## The worker's ownership (R513) -/

theorem State.WorkerOwns.congr {s t : State} (h : s.WorkerOwns) (hpc : t.chRx.pc = s.chRx.pc)
    (hw : t.worker = s.worker) (ho : t.openRx = s.openRx) (hx : t.rx = s.rx) : t.WorkerOwns where
  deadWhereNeeded := by rw [hpc, hw]; exact h.deadWhereNeeded
  openWhileAlive := by rw [hw, ho, hx]; exact h.openWhileAlive
  openWhileArming := by rw [hpc, ho, hx]; exact h.openWhileArming

/-! ## The channels after an issue (R18) -/

theorem State.pc_begin (s : State) (i : Instr) (w : U32) : ((s.begin i w).chan i.channel).pc = firstLabel i :=
  congrArg Chan.pc (((keepsChannels_issueStatus _ _).chan _).trans (State.chan_setChan_same ..))

theorem State.chan_begin_other (s : State) (i : Instr) (w : U32) {c : Channel} (h : c ≠ i.channel) :
    (s.begin i w).chan c = s.chan c :=
  ((keepsChannels_issueStatus _ _).chan _).trans (State.chan_setChan_other _ _ _ _ h)

/-! ## The offset table and the worker under RX.RECEIVE (R811) -/

/-- The parts of the state that the offset table's order depends on, the consumer's label apart (R211, R840). -/
def State.tableView (s : State) : U32 × Sparse U32 × Nat × Worker × Config × Nat :=
  (s.rx.count, s.rx.table, s.rx.nextOff, s.worker, s.cfg, s.epoch)

@[simp] theorem State.tableView_setChan (s : State) (c : Channel) (x : Chan) :
    (s.setChan c x).tableView = s.tableView := by
  cases c <;> rfl

theorem State.worker_of_tableView {s t : State} (h : t.tableView = s.tableView) : t.worker = s.worker :=
  congrArg (fun v => v.2.2.2.1) h

theorem tableView_rvCheck (s : State) : (rvCheck s).tableView = s.tableView := by
  unfold rvCheck
  split
  · exact s.tableView_setChan _ _
  · split <;> exact s.tableView_setChan _ _

theorem tableView_rvWait (p : Bool) (onWake onExpire : Label) (s : State) :
    (rvWait p onWake onExpire s).tableView = s.tableView := by
  unfold rvWait
  split
  · split
    · exact s.tableView_setChan _ _
    · rfl
  · split
    · exact s.tableView_setChan _ _
    · rfl
  · rfl

theorem tableView_endCycle (s : State) (ph : RxPhase) (st : Status) (vs : List U32) :
    (s.endCycle ph st vs).tableView = s.tableView := rfl

theorem tableView_rvFirst (s : State) : (rvFirst s).tableView = s.tableView := by
  unfold rvFirst
  split
  · exact tableView_endCycle s _ _ _
  · exact s.tableView_setChan _ _

theorem tableView_rvValidate (s : State) : (rvValidate s).tableView = s.tableView := by
  unfold rvValidate
  dsimp only
  split <;> rfl

theorem tableView_rvLoop (s : State) : (rvLoop s).tableView = s.tableView := by
  unfold rvLoop
  split
  · exact tableView_endCycle s _ _ _
  · split
    · exact tableView_endCycle s _ _ _
    · exact s.tableView_setChan _ _

theorem tableView_rvLast (s : State) : (rvLast s).tableView = s.tableView := by
  unfold rvLast
  split <;> exact tableView_endCycle s _ _ _

/-- RX.RECEIVE resets the counters at RV3 and spawns the worker at RV4; its other steps leave both alone. -/
theorem execRxReceive_tableView (s : State) :
    leadsTo (fun t => t.tableView = s.tableView ∨ (s.chRx.pc = .rv3 ∧ t = rvArm s) ∨ (s.chRx.pc = .rv4 ∧ t = rvSpawn s))
      (execRxReceive s) := by
  unfold execRxReceive
  split
  · exact .inl (tableView_rvCheck s)
  · split
    · exact .inl rfl
    · exact .inl (s.tableView_setChan _ _)
  next hpc => exact .inr (.inl ⟨hpc, rfl⟩)
  next hpc => exact .inr (.inr ⟨hpc, rfl⟩)
  · exact .inl (tableView_rvWait _ _ _ s)
  · exact .inl (tableView_rvFirst s)
  · exact .inl (tableView_rvValidate s)
  · exact .inl (tableView_rvLoop s)
  · exact .inl (tableView_rvWait _ _ _ s)
  · exact .inl (tableView_rvLast s)
  · trivial

end Sys2Proof.Machine
end

section
/-! SUPPORT. No engine procedure programs a transfer outside its buffer: what each operation leaves of the registers that a
submit reads and of the queue (R202, R504, R505, R507, R541), and from this what every move does. -/

namespace Sys2Proof.Machine

/-! ## The registers that a submit reads -/

/-- `d'` has the address, the row length and the row count that engine `e` programmed in `d`, and its transfers lie where
those of `d` do. -/
structure Dmac.KeepsProgram (e : Engine) (d d' : Dmac) : Prop where
  address : d'.read (addrReg e) = d.read (addrReg e)
  xLength : d'.xLength = d.xLength
  yLength : d'.yLength = d.yLength
  queue : ∀ c, (∀ r ∈ d.queue, r.inside c e = true) → ∀ r ∈ d'.queue, r.inside c e = true

theorem Dmac.KeepsProgram.refl (e : Engine) (d : Dmac) : d.KeepsProgram e d := ⟨rfl, rfl, rfl, fun _ h => h⟩

theorem Dmac.Programmed.keeps {d d' : Dmac} {c : Config} {e : Engine} {l : DmaLabel} {off : Nat} {size : U32}
    (h : d.Programmed c e l off size) (hk : d.KeepsProgram e d') : d'.Programmed c e l off size where
  checked := h.checked
  address hl := hk.address.trans (h.address hl)
  rowLength hl := hk.xLength.trans (h.rowLength hl)
  rows hl := hk.yLength.trans (h.rows hl)

/-- At its first step a procedure has checked and programmed nothing. -/
theorem Dmac.Programmed.first (d : Dmac) (c : Config) (e : Engine) (off : Nat) (size : U32) :
    d.Programmed c e .d1 off size where
  checked h := absurd rfl h
  address h := nomatch h
  rowLength h := nomatch h
  rows h := nomatch h

theorem DmaLabel.addressSet_of_lengthSet {l : DmaLabel} (h : l.lengthSet = true) : l.addressSet = true := by
  cases l <;> first | rfl | cases h

theorem DmaLabel.addressSet_of_rowsSet {l : DmaLabel} (h : l.rowsSet = true) : l.addressSet = true := by
  cases l <;> first | rfl | cases h

/-- Before the address is programmed and after the submit only the checks count. -/
theorem Dmac.Programmed.of_checked {d : Dmac} {c : Config} {e : Engine} {l : DmaLabel} {off : Nat} {size : U32}
    (h : dmaChecked c e off size) (hl : l.addressSet = false) : d.Programmed c e l off size where
  checked _ := h
  address ha := absurd ha (by simp [hl])
  rowLength hr := absurd (DmaLabel.addressSet_of_lengthSet hr) (by simp [hl])
  rows hr := absurd (DmaLabel.addressSet_of_rowsSet hr) (by simp [hl])

theorem Dmac.signal_eq (d : Dmac) (ph : Phase) : ∃ v, d.signal ph = { d with irqPending := v } := by
  unfold Dmac.signal
  split
  · exact ⟨d.irqPending, rfl⟩
  · exact ⟨_, rfl⟩

/-- The start of the head leaves its rows alone (R542). -/
theorem Dmac.KeepsProgram.start (e : Engine) {d : Dmac} {r : DmaRec} {rest : List DmaRec} (hq : d.queue = r :: rest) :
    d.KeepsProgram e (d.start r rest) := by
  obtain ⟨v, hv⟩ := Dmac.signal_eq { d with queue := { r with started := true } :: rest } .sot
  rw [Dmac.start, hv]
  refine ⟨by cases e <;> rfl, rfl, rfl, fun c h => ?_⟩
  rw [hq, List.forall_mem_cons] at h
  exact List.forall_mem_cons.2 h

/-- The end of a transfer takes its record out of the queue or leaves it there (R543, R544). -/
theorem Dmac.KeepsProgram.complete (e : Engine) {d : Dmac} {r : DmaRec} {rest : List DmaRec} (hq : d.queue = r :: rest) :
    d.KeepsProgram e (d.complete r rest) := by
  obtain ⟨v, hv⟩ := Dmac.signal_eq d .eot
  rw [Dmac.complete, hv]
  refine ⟨by cases e <;> rfl, rfl, rfl, fun c h => ?_⟩
  rw [hq] at h
  dsimp only
  split
  · exact h
  · exact (List.forall_mem_cons.1 h).2

/-- Only a submit adds a transfer. -/
theorem Dmac.mem_queue_write {d : Dmac} {c : Config} {e : Engine} {k : DReg} {v : U32} {r : DmaRec}
    (hk : k ≠ .transferSubmit) (h : r ∈ (d.write c e k v).queue) : r ∈ d.queue := by
  cases k with
  | transferSubmit => exact absurd rfl hk
  | control =>
    simp only [Dmac.write] at h
    split at h
    · exact h
    · cases h
  | _ => exact h

/-- The abort empties the queue and programs nothing (R545). -/
theorem Dmac.KeepsProgram.writeControl (e : Engine) (d : Dmac) (c : Config) (v : U32) :
    d.KeepsProgram e (d.write c e .control v) :=
  ⟨by cases e <;> rfl, rfl, rfl, fun _ h r hr => h r (Dmac.mem_queue_write (by decide) hr)⟩

/-! ## The DMA procedures (R504 to R507) -/

theorem State.dmac_regWrite (s : State) (e : Engine) (k : DReg) (v : U32) :
    (s.regWrite (dReg e k) v).dmac e = (s.dmac e).write s.cfg e k v := by
  cases e <;> rfl

theorem addressSet_of_afterPhase {e : Engine} {d d' : DmaLocals} {s t : State} {l : DmaLabel}
    (h : afterPhase e d s = .go l d' t) : l.addressSet = false := by
  unfold afterPhase at h
  split at h
  · cases h; rfl
  · split at h
    · cases h; rfl
    · split at h <;> cases h
      · rfl
      · cases e <;> rfl

/-- The size check passes and there is something to move: the range lies in the buffer (R504). -/
theorem dmaChecked_of_sizeOk {c : Config} {e : Engine} {off : Nat} {size : U32} (h : dmaSizeOk c e off size = true)
    (hs : size ≠ 0#32) : dmaChecked c e off size := by
  simp only [dmaSizeOk, Bool.and_eq_true, decide_eq_true_eq] at h
  have hne : s32 size ≠ 0 := fun h0 => hs (BitVec.eq_of_toInt_eq h0)
  exact ⟨by omega, h.2⟩

/-- The first step of a procedure goes on only past its checks. -/
theorem dmaCheck_eq_go {e : Engine} {d d' : DmaLocals} {s t : State} {l : DmaLabel}
    (h : dmaCheck e d s = .go l d' t) : l = .d2 ∧ t = s ∧ dmaChecked s.cfg e d.off d.size := by
  unfold dmaCheck at h
  split at h
  · cases h
  · split at h
    · cases h
    next hok =>
      split at h <;> cases h
      exact ⟨rfl, rfl, dmaChecked_of_sizeOk (by simpa using hok) ‹_›⟩

/-- A step of a procedure that goes on leaves the controller programmed as far as its next label says. -/
theorem dmaStep_programmed {e : Engine} {l l' : DmaLabel} {d d' : DmaLocals} {s t : State}
    (h : dmaStep e l d s = .go l' d' t) (hp : (s.dmac e).Programmed s.cfg e l d.off d.size) :
    (t.dmac e).Programmed s.cfg e l' d.off d.size := by
  have hc : l ≠ .d1 → l'.addressSet = false → (t.dmac e).Programmed s.cfg e l' d.off d.size :=
    fun hl ha => .of_checked (hp.checked hl) ha
  cases l <;> simp only [dmaStep] at h
  case d1 =>
    obtain ⟨rfl, -, hchk⟩ := dmaCheck_eq_go h
    exact .of_checked hchk rfl
  case d7 =>
    cases h
    refine ⟨fun _ => hp.checked (by decide), fun _ => ?_, nofun, nofun⟩
    rw [State.dmac_regWrite]
    cases e <;> rfl
  case d8 =>
    cases h
    refine ⟨fun _ => hp.checked (by decide), fun _ => ?_, nofun, nofun⟩
    rw [State.dmac_regWrite, ← hp.address rfl]
    cases e <;> rfl
  case d9 =>
    cases h
    refine ⟨fun _ => hp.checked (by decide), fun _ => ?_, fun _ => ?_, nofun⟩ <;> rw [State.dmac_regWrite]
    · rw [← hp.address rfl]
      cases e <;> rfl
    · rfl
  case d10 =>
    cases h
    refine ⟨fun _ => hp.checked (by decide), fun _ => ?_, fun _ => ?_, fun _ => ?_⟩ <;> rw [State.dmac_regWrite]
    · rw [← hp.address rfl]
      cases e <;> rfl
    · exact hp.rowLength rfl
    · rfl
  case d11 =>
    cases h
    exact ⟨fun _ => hp.checked (by decide), fun _ => hp.address rfl, fun _ => hp.rowLength rfl, fun _ => hp.rows rfl⟩
  case d12 => exact hc (by decide) (by split at h <;> cases h <;> cases e <;> rfl)
  case wp1 =>
    refine hc (by decide) ?_
    split at h
    · exact addressSet_of_afterPhase h
    · cases h; rfl
  case wp3 =>
    refine hc (by decide) ?_
    unfold dmaIrqWait at h
    split at h
    · cases h
    · cases h
    · exact addressSet_of_afterPhase h
    · cases h; rfl
  case wp5 =>
    refine hc (by decide) ?_
    unfold dmaAck at h
    dsimp only at h
    split at h
    · exact addressSet_of_afterPhase h
    · cases h
      unfold waitLabel
      split <;> rfl
  case pd1 => exact hc (by decide) (by split at h <;> cases h <;> rfl)
  case back => cases h
  all_goals exact hc (by decide) (by cases h; rfl)

theorem Config.wf_bufPhys {c : Config} (h : c.wf = true) (e : Engine) : c.bufPhys e + c.bufSize e ≤ 2 ^ 32 := by
  have h' := h
  simp only [Config.wf] at h'
  cases e <;> simp_all [Config.bufPhysOk]

/-- A positive word reads the same with and without a sign (R9). -/
theorem s32_eq_toNat {w : U32} (h : 0 < s32 w) : s32 w = (w.toNat : Int) := by
  have hlt := w.isLt
  unfold s32 at h ⊢
  rw [BitVec.toInt_eq_toNat_cond] at h ⊢
  split at h <;> omega

/-- A record submitted with the range of the checks is one row inside the buffer's window (R202, R541). -/
theorem newRec_inside {d : Dmac} {c : Config} {e : Engine} {off : Nat} {size : U32} (hw : c.wf = true)
    (hp : d.Programmed c e .d12 off size) : (d.newRec e).inside c e = true := by
  obtain ⟨hpos, hfit⟩ := hp.checked (by decide)
  have hphys := Config.wf_bufPhys hw e
  have hs := s32_eq_toNat hpos
  have hlt := size.isLt
  have hrows : (d.newRec e).rows = 1 := by simp [Dmac.newRec, hp.rows rfl]
  have hlen : (d.newRec e).rowLen = size.toNat := by
    have hx := hp.rowLength rfl
    simp only [Dmac.newRec, hx, BitVec.toNat_sub, BitVec.toNat_ofNat]
    omega
  have haddr : (d.newRec e).addr = c.bufPhys e + off := by
    have ha : (d.newRec e).addr = (d.read (addrReg e)).toNat := by cases e <;> rfl
    rw [ha, hp.address rfl, u32, BitVec.toNat_ofNat]
    omega
  simp [DmaRec.inside, DmaRec.ranges, hrows, hlen, haddr]
  omega

/-- A step of a procedure makes at most one register write to its controller, and submits at its step `d12` only. -/
theorem dmac_dmaStep {e : Engine} {l l' : DmaLabel} {d d' : DmaLocals} {s t : State}
    (h : dmaStep e l d s = .go l' d' t) :
    t.dmac e = s.dmac e ∨
      ∃ k v, t.dmac e = (s.dmac e).write s.cfg e k v ∧ (k = .transferSubmit → l = .d12) := by
  have hw : ∀ k v, (s.regWrite (dReg e k) v).dmac e = (s.dmac e).write s.cfg e k v := s.dmac_regWrite e
  cases l <;> simp only [dmaStep] at h
  case d1 =>
    obtain ⟨-, rfl, -⟩ := dmaCheck_eq_go h
    exact .inl rfl
  case d12 => split at h <;> cases h <;> exact .inr ⟨_, _, hw _ _, fun _ => rfl⟩
  case d11 => cases h; exact .inl rfl
  case wp1 =>
    split at h
    · exact .inl (eq_of_afterPhase_go h ▸ rfl)
    · cases h; exact .inl rfl
  case wp2 => cases h; exact .inl (by cases e <;> rfl)
  case wp3 =>
    have hi : ∀ {r u}, s.irqWait e.space d.t0 s.cfg.dmaIrqTimeoutMs = some (r, u) → u.dmac e = s.dmac e := fun hu => by
      rcases State.irqWait_eq_some hu with ⟨-, -, -, rfl⟩ | ⟨-, -, -, rfl⟩ | ⟨-, -, -, rfl⟩
      · cases e <;> rfl
      · rfl
      · rfl
    unfold dmaIrqWait at h
    split at h
    · cases h
    · cases h
    next hu => exact .inl (eq_of_afterPhase_go h ▸ hi hu)
    next hu => cases h; exact .inl (hi hu)
  case wp4 => cases h; exact .inl rfl
  case wp5 =>
    unfold dmaAck at h
    dsimp only at h
    split at h
    · exact .inr ⟨.irqPending, _, eq_of_afterPhase_go h ▸ hw _ _, nofun⟩
    · cases h; exact .inr ⟨.irqPending, _, hw _ _, nofun⟩
  case pd1 => split at h <;> cases h <;> exact .inl rfl
  case back => cases h
  all_goals
    cases h
    exact .inr ⟨_, _, hw _ _, by cases e <;> exact fun hk => nomatch hk⟩

/-- A submit adds the record of the registers at most (R541). -/
theorem Dmac.mem_queue_submit {d : Dmac} {c : Config} {e : Engine} {r : DmaRec} (h : r ∈ (d.submit c e).queue) :
    r ∈ d.queue ∨ r = d.newRec e := by
  unfold Dmac.submit at h
  split at h
  · exact .inl h
  · exact (List.mem_append.1 h).imp id List.mem_singleton.1

/-- A step of a procedure adds no transfer outside the window. -/
theorem dmaStep_queue {e : Engine} {l l' : DmaLabel} {d d' : DmaLocals} {s t : State} (hw : s.cfg.wf = true)
    (h : dmaStep e l d s = .go l' d' t) (hp : (s.dmac e).Programmed s.cfg e l d.off d.size)
    (hq : ∀ r ∈ (s.dmac e).queue, r.inside s.cfg e = true) : ∀ r ∈ (t.dmac e).queue, r.inside s.cfg e = true := by
  intro r hr
  rcases dmac_dmaStep h with ht | ⟨k, v, ht, hk⟩ <;> rw [ht] at hr
  · exact hq r hr
  · by_cases hs : k = .transferSubmit
    · obtain rfl := hk hs
      subst hs
      simp only [Dmac.write] at hr
      split at hr
      · rcases Dmac.mem_queue_submit hr with hr | rfl
        · exact hq r hr
        · exact newRec_inside hw hp
      · exact hq r hr
    · exact hq r (Dmac.mem_queue_write hs hr)

end Sys2Proof.Machine
end

section
/-! SUPPORT. Which procedures are under way after a move, and that every move but the host's register write to a controller
keeps them and the queues inside the buffers (R202, R504, R513). -/

namespace Sys2Proof.Machine

/-! ## The procedures under way -/

/-- The label of the DMA procedure that a command's label shows. -/
def Label.dmaLabel : Label → Option DmaLabel
  | .dma l | .tsFlush l | .tbFlush l | .tbEobf l => some l
  | _ => none

/-- A DMA procedure is under way on engine `e`: at a label, with its offset and size. -/
inductive State.RunsDma (s : State) : Engine → DmaLabel → Nat → U32 → Prop
  | commandTx {l} (h : s.chTx.pc = .dma l) : s.RunsDma .tx l s.chTx.opd.a0.toNat s.chTx.opd.a1
  | flushTx {l} (h : s.chTx.pc = .tsFlush l ∨ s.chTx.pc = .tbFlush l ∨ s.chTx.pc = .tbEobf l) :
      s.RunsDma .tx l s.chTx.loc.dma.off s.chTx.loc.dma.size
  | commandRx {l} (h : s.chRx.pc = .dma l) : s.RunsDma .rx l s.chRx.opd.a0.toNat s.chRx.opd.a1
  | readRx {l} (h : s.worker.pc = .w7 l) : s.RunsDma .rx l s.worker.dma.off s.worker.dma.size

theorem State.RunsDma.label_tx {s : State} {l : DmaLabel} {off : Nat} {size : U32} (h : s.RunsDma .tx l off size) :
    s.chTx.pc.dmaLabel = some l := by
  cases h with
  | commandTx h => rw [h]; rfl
  | flushTx h => rcases h with h | h | h <;> rw [h] <;> rfl

/-- The part of a channel that says which procedure it runs with which operands. -/
def Chan.procedure (x : Chan) : Label × Operands × Locals := (x.pc, x.opd, x.loc)

/-- A procedure is under way afterwards where one began, or where one was. -/
theorem State.RunsDma.of_parts {s t : State} {e : Engine} {l : DmaLabel} {off : Nat} {size : U32}
    (h : t.RunsDma e l off size)
    (hc : ∀ k, (t.chan e.channel).pc.dmaLabel = some k →
      k = .d1 ∨ (t.chan e.channel).procedure = (s.chan e.channel).procedure)
    (hw : e = .rx → ∀ k, t.worker.pc = .w7 k → k = .d1 ∨ t.worker = s.worker) :
    l = .d1 ∨ s.RunsDma e l off size := by
  simp only [Chan.procedure, Prod.mk.injEq] at hc
  cases h with
  | commandTx hl =>
    refine (hc l (congrArg Label.dmaLabel hl)).imp id fun ⟨hpc, hopd, _⟩ => ?_
    have hopd : t.chTx.opd = s.chTx.opd := hopd
    rw [hopd]
    exact .commandTx (hpc.symm.trans hl)
  | flushTx hl =>
    refine (hc l (by rcases hl with hl | hl | hl <;> exact congrArg Label.dmaLabel hl)).imp id fun ⟨hpc, _, hloc⟩ => ?_
    have hpc : t.chTx.pc = s.chTx.pc := hpc
    have hloc : t.chTx.loc = s.chTx.loc := hloc
    rw [hloc]
    rw [hpc] at hl
    exact .flushTx hl
  | commandRx hl =>
    refine (hc l (congrArg Label.dmaLabel hl)).imp id fun ⟨hpc, hopd, _⟩ => ?_
    have hopd : t.chRx.opd = s.chRx.opd := hopd
    rw [hopd]
    exact .commandRx (hpc.symm.trans hl)
  | readRx hl =>
    refine (hw rfl l hl).imp id fun hwk => ?_
    rw [hwk] at hl ⊢
    exact .readRx hl

/-- The part of `State.Tame` that concerns one engine. -/
structure State.TameEngine (s : State) (e : Engine) : Prop where
  queue : ∀ r ∈ (s.dmac e).queue, r.inside s.cfg e = true
  programmed : ∀ {l off size}, s.RunsDma e l off size → (s.dmac e).Programmed s.cfg e l off size

theorem State.tame_iff (s : State) : s.Tame ↔ (∀ e, s.TameEngine e) ∧ s.faultDmaWild = false := by
  constructor
  · refine fun h => ⟨fun e => ?_, h.noWild⟩
    cases e with
    | tx =>
      exact ⟨h.queueTx, fun hr => by
        cases hr with
        | commandTx hl => exact h.commandTx _ hl
        | flushTx hl => exact h.flushTx _ hl⟩
    | rx =>
      exact ⟨h.queueRx, fun hr => by
        cases hr with
        | commandRx hl => exact h.commandRx _ hl
        | readRx hl => exact h.readRx _ hl⟩
  · exact fun ⟨h, hw⟩ =>
      { queueTx := (h .tx).queue
        queueRx := (h .rx).queue
        commandTx := fun _ hl => (h .tx).programmed (.commandTx hl)
        commandRx := fun _ hl => (h .rx).programmed (.commandRx hl)
        flushTx := fun _ hl => (h .tx).programmed (.flushTx hl)
        readRx := fun _ hl => (h .rx).programmed (.readRx hl)
        noWild := hw }

/-- An update that keeps what engine `e` programmed and where its transfers lie. -/
structure KeepsDma (e : Engine) (s t : State) : Prop where
  cfg : t.cfg = s.cfg
  dmac : (s.dmac e).KeepsProgram e (t.dmac e)

theorem KeepsDma.of_eq {e : Engine} {s t : State} (hc : t.cfg = s.cfg) (hd : t.dmac e = s.dmac e) :
    KeepsDma e s t :=
  ⟨hc, hd ▸ .refl e _⟩

theorem KeepsDma.refl (e : Engine) (s : State) : KeepsDma e s s := .of_eq rfl rfl

namespace State.TameEngine

variable {s t u : State} {e : Engine}

/-- Every procedure under way afterwards is at its first step, or was under way before. -/
theorem keeps (h : s.TameEngine e) (hk : KeepsDma e s t)
    (hr : ∀ {l off size}, t.RunsDma e l off size → l = .d1 ∨ s.RunsDma e l off size) : t.TameEngine e where
  queue := by
    rw [hk.cfg]
    exact hk.dmac.queue _ h.queue
  programmed hp := by
    rcases hr hp with rfl | hp
    · exact .first ..
    · rw [hk.cfg]
      exact (h.programmed hp).keeps hk.dmac

/-- A step of a procedure that goes on, under whatever label its caller shows it. -/
theorem dmaStep_go (h : s.TameEngine e) (hw : s.cfg.wf = true) {l l' : DmaLabel} {d d' : DmaLocals}
    (hs : dmaStep e l d s = .go l' d' t) (hl : s.RunsDma e l d.off d.size) (hc : u.cfg = t.cfg)
    (hd : u.dmac e = t.dmac e)
    (hr : ∀ {k off size}, u.RunsDma e k off size → k = .d1 ∨ k = l' ∧ off = d.off ∧ size = d.size) :
    u.TameEngine e := by
  have hcfg : u.cfg = s.cfg := hc.trans (keepsChannels_dmaStep_go hs).grows.cfg
  constructor
  · rw [hd, hcfg]
    exact dmaStep_queue hw hs (h.programmed hl) h.queue
  · intro k off size hp
    rcases hr hp with rfl | ⟨rfl, rfl, rfl⟩
    · exact .first ..
    · rw [hd, hcfg]
      exact dmaStep_programmed hs (h.programmed hl)

/-- A command of `CH_TX` that writes its channel last and stands at no label of a procedure but a first one. -/
theorem setChanTx {y : Chan} (h : s.TameEngine .tx) (hk : KeepsDma .tx s u)
    (hy : ∀ l, y.pc.dmaLabel = some l → l = .d1) : (u.setChan .tx y).TameEngine .tx :=
  h.keeps ⟨hk.cfg, hk.dmac⟩ fun hp => .inl (hy _ hp.label_tx)

theorem finishTx {st : Status} {vs : List U32} (h : s.TameEngine .tx) (hk : KeepsDma .tx s u) :
    (u.finish .tx st vs).TameEngine .tx := h.setChanTx hk fun _ hl => nomatch hl

theorem raiseTx {st : Status} (h : s.TameEngine .tx) (hk : KeepsDma .tx s u) :
    (u.raise .tx st).TameEngine .tx := h.finishTx hk

theorem gotoWithTx {p : Label} {x : Locals} (h : s.TameEngine .tx) (hk : KeepsDma .tx s u)
    (hp : p.dmaLabel = none ∨ p.dmaLabel = some .d1) : (u.gotoWith .tx p x).TameEngine .tx :=
  h.setChanTx hk fun l hl => by
    have hl' : p.dmaLabel = some l := hl
    rcases hp with hp | hp <;> rw [hp] at hl' <;> cases hl'
    rfl

theorem gotoTx {p : Label} (h : s.TameEngine .tx) (hk : KeepsDma .tx s u) (hp : p.dmaLabel = none) :
    (u.goto .tx p).TameEngine .tx := h.setChanTx hk fun l hl => by
      have hl' : p.dmaLabel = some l := hl
      rw [hp] at hl'
      cases hl'

end State.TameEngine

/-! ## TX.WRITE (R705, R720) -/

section TxWrite

variable {s : State}

theorem txCheck_tame (h : s.TameEngine .tx) : (txCheck s).TameEngine .tx := by
  have hk := KeepsDma.refl .tx s
  unfold txCheck
  dsimp only
  split
  · exact h.raiseTx hk
  · split
    · exact h.raiseTx hk
    · split
      · exact h.raiseTx hk
      · exact h.gotoWithTx hk (.inl rfl)

theorem txPlan_tame (h : s.TameEngine .tx) : (txPlan s).TameEngine .tx := by
  unfold txPlan
  dsimp only
  split
  · exact h.raiseTx (.of_eq rfl rfl)
  · exact h.gotoWithTx (.of_eq rfl rfl) (.inl (by split <;> rfl))

theorem keepsDma_txBuild (s : State) : KeepsDma .tx s (txBuild s) := .of_eq rfl rfl

theorem txStage_tame (h : s.TameEngine .tx) : (txStage s).TameEngine .tx := by
  unfold txStage
  dsimp only
  split
  · exact h.gotoWithTx (keepsDma_txBuild s) (.inl rfl)
  · exact h.gotoWithTx (keepsDma_txBuild s) (.inr rfl)

theorem txFlushed_tame (h : s.TameEngine .tx) : (txFlushed s).TameEngine .tx := by
  have hk := KeepsDma.refl .tx s
  unfold txFlushed
  dsimp only
  split
  · exact h.gotoWithTx hk (.inl rfl)
  · split
    · exact h.gotoWithTx hk (.inl rfl)
    · exact h.gotoWithTx hk (.inl rfl)

theorem txPause_tame (h : s.TameEngine .tx) : (txPause s).TameEngine .tx := by
  unfold txPause
  split
  · exact h.gotoTx (.refl .tx s) rfl
  · exact h

/-- A flush stands at one of the three groups of labels, and programs what its locals say. -/
theorem txFlush_tame (hw : s.cfg.wf = true) {mk : DmaLabel → Label} {k : State → State} {l : DmaLabel}
    (hmk : mk = .tsFlush ∨ mk = .tbFlush ∨ mk = .tbEobf) (hpc : s.chTx.pc = mk l) (h : s.TameEngine .tx)
    (hk : (k s).TameEngine .tx) : (txFlush mk k l s).TameEngine .tx := by
  have hr : s.RunsDma .tx l s.chTx.loc.dma.off s.chTx.loc.dma.size := .flushTx (by
    rcases hmk with rfl | rfl | rfl
    · exact .inl hpc
    · exact .inr (.inl hpc)
    · exact .inr (.inr hpc))
  unfold txFlush
  split
  next l' d' t hs =>
    have hd := dmaStep_keeps .tx l s.chTx.loc.dma s
    rw [hs] at hd
    obtain ⟨-, hoff, hsize, -⟩ := hd
    refine h.dmaStep_go hw hs hr rfl rfl fun hp => .inr ?_
    have hl := hp.label_tx
    cases hp with
    | commandTx hp => rcases hmk with rfl | rfl | rfl <;> cases hp
    | flushTx hp => exact ⟨by rcases hmk with rfl | rfl | rfl <;> cases hl <;> rfl, hoff, hsize⟩
  next hs => exact (eq_of_dmaStep_ret hs).symm ▸ hk
  next hs =>
    obtain rfl := eq_of_dmaStep_ret hs
    exact h.raiseTx (.refl .tx _)
  · exact h

theorem execTxWrite_tame (hw : s.cfg.wf = true) (h : s.TameEngine .tx) :
    leadsTo (fun t => t.TameEngine .tx) (execTxWrite s) := by
  have hk := KeepsDma.refl .tx s
  unfold execTxWrite
  split
  · exact txCheck_tame h
  · exact txPlan_tame h
  · exact txStage_tame h
  next hpc => exact txFlush_tame hw (.inl rfl) hpc h (h.gotoTx hk rfl)
  · exact h.gotoWithTx (keepsDma_txBuild s) (.inr rfl)
  next hpc => exact txFlush_tame hw (.inr (.inl rfl)) hpc h (txFlushed_tame h)
  · exact h.gotoWithTx (.of_eq rfl rfl) (.inl rfl)
  · exact txPause_tame h
  · exact h.gotoWithTx (.of_eq rfl rfl) (.inr rfl)
  next hpc => exact txFlush_tame hw (.inr (.inr rfl)) hpc h (h.gotoTx hk rfl)
  · exact h.finishTx hk
  · trivial

end TxWrite

/-! ## DMA.WRITE and DMA.READ (R506, R508) -/

/-- The end of a command, on either engine. -/
theorem State.TameEngine.finish {s : State} {e : Engine} (h : s.TameEngine e) (st : Status) (vs : List U32) :
    (s.finish e.channel st vs).TameEngine e := by
  refine h.keeps (.of_eq (by cases e <;> rfl) (by cases e <;> rfl)) fun hp => .inr ?_
  cases e with
  | tx => nomatch hp.label_tx
  | rx =>
    cases hp with
    | commandRx hl => cases hl
    | readRx hl => exact .readRx hl

/-- The body of a DMA command, where no living worker shares the engine with it. -/
theorem dmaCommand_tame {s : State} {e : Engine} {l : DmaLabel} (hw : s.cfg.wf = true) (h : s.TameEngine e)
    (hpc : (s.chan e.channel).pc = .dma l) (hworker : e = .rx → s.worker.pc = .dead) (cyc cnf : Bool) :
    leadsTo (fun t => t.TameEngine e) (dmaCommand e cyc cnf l s) := by
  have hr : s.RunsDma e l (s.chan e.channel).opd.a0.toNat (s.chan e.channel).opd.a1 := by
    cases e
    · exact .commandTx hpc
    · exact .commandRx hpc
  unfold dmaCommand
  dsimp only
  split
  next l' d' t hs =>
    have hchan := (keepsChannels_dmaStep_go hs).chan e.channel
    have hwk : t.worker = s.worker := by
      have hd := dmaStep_keeps e l (dmaArgs (s.chan e.channel).opd cyc cnf (s.chan e.channel).loc.dma) s
      rw [hs] at hd
      rw [hd.1.eq_frame]
    refine h.dmaStep_go hw hs hr (State.gotoWith_cfg ..) (by cases e <;> rfl) fun hp => .inr ?_
    cases e with
    | tx =>
      have hopd : t.chTx.opd = s.chTx.opd := congrArg Chan.opd hchan
      cases hp with
      | commandTx hl =>
        cases hl
        exact ⟨rfl, congrArg (fun a => a.a0.toNat) hopd, congrArg Operands.a1 hopd⟩
      | flushTx hl => rcases hl with hl | hl | hl <;> cases hl
    | rx =>
      have hopd : t.chRx.opd = s.chRx.opd := congrArg Chan.opd hchan
      cases hp with
      | commandRx hl =>
        cases hl
        exact ⟨rfl, congrArg (fun a => a.a0.toNat) hopd, congrArg Operands.a1 hopd⟩
      | readRx hl =>
        have hdead := hworker rfl
        rw [State.gotoWith_worker, hwk, hdead] at hl
        cases hl
  next hs => exact (eq_of_dmaStep_ret hs).symm ▸ h.finish _ _
  next hs => exact (eq_of_dmaStep_ret hs).symm ▸ h.finish _ _
  · exact h

theorem execDmaWrite_tame {s : State} {e : Engine} (hw : s.cfg.wf = true) (h : s.TameEngine e) (cyc cnf : Bool) :
    leadsTo (fun t => t.TameEngine e) (execDmaWrite e cyc cnf s) := by
  unfold execDmaWrite
  split
  next hpc =>
    split
    · exact h.finish _ _
    next he => exact dmaCommand_tame hw h hpc (fun hrx => absurd hrx he) cyc cnf
  · trivial

/-- Past its first step a DMA.READ relies on a dead worker, and at its first step it asks for one (R513). -/
theorem execDmaRead_tame {s : State} {e : Engine} (hw : s.cfg.wf = true) (ho : s.WorkerOwns) (h : s.TameEngine e) :
    leadsTo (fun t => t.TameEngine e) (execDmaRead e s) := by
  unfold execDmaRead
  split
  next l hpc =>
    split
    · exact h.finish _ _
    · split
      · exact h.finish _ _
      next hb =>
        refine dmaCommand_tame hw h hpc (fun he => ?_) false true
        subst he
        by_cases hl : l = .d1
        · simpa [hl, State.workerAlive] using hb
        · have hpc' : s.chRx.pc = .dma l := hpc
          exact ho.deadWhereNeeded (by simp [hpc', Label.needsDeadWorker, hl])
  · trivial

/-! ## The other commands -/

/-- A step that at most writes `CONTROL`, on each controller. -/
def AbortsAtMost (s t : State) : Prop :=
  ∀ e, t.dmac e = s.dmac e ∨ ∃ v, t.dmac e = (s.dmac e).write s.cfg e .control v

theorem AbortsAtMost.of_eq {s t : State} (h : ∀ e, t.dmac e = s.dmac e) : AbortsAtMost s t := fun e => .inl (h e)

theorem abortsAtMost_regWrite (e : Engine) (s : State) (v : U32) : AbortsAtMost s (s.regWrite (dReg e .control) v) := by
  intro e'
  by_cases he : e' = e
  · subst he
    exact .inr ⟨v, s.dmac_regWrite ..⟩
  · exact .inl (by cases e <;> cases e' <;> first | rfl | exact absurd rfl he)

theorem AbortsAtMost.setChan {s u : State} (h : AbortsAtMost s u) (c : Channel) (y : Chan) :
    AbortsAtMost s (u.setChan c y) := by
  intro e
  have hd : (u.setChan c y).dmac e = u.dmac e := by cases c <;> cases e <;> rfl
  rw [hd]
  exact h e

theorem execDmaClose_aborts (e : Engine) (s : State) : leadsTo (AbortsAtMost s) (execDmaClose e s) := by
  have hs : AbortsAtMost s s := .of_eq fun _ => rfl
  unfold execDmaClose
  split
  · split
    · exact hs.setChan _ _
    · split
      · exact hs.setChan _ _
      · exact (abortsAtMost_regWrite e s _).setChan _ _
  · exact .setChan (.of_eq fun e' => by cases e <;> cases e' <;> rfl) _ _
  · trivial

theorem execTxClose_aborts (s : State) : leadsTo (AbortsAtMost s) (execTxClose s) := by
  unfold execTxClose
  split
  · split
    · exact (abortsAtMost_regWrite .tx s _).setChan _ _
    · exact .of_eq fun e => by cases e <;> rfl
  · exact .of_eq fun e => by cases e <;> rfl
  · trivial

theorem execRxClose_aborts (s : State) : leadsTo (AbortsAtMost s) (execRxClose s) := by
  have hs : AbortsAtMost s s := .of_eq fun _ => rfl
  unfold execRxClose
  split
  · split
    · exact hs.setChan _ _
    · exact hs.setChan _ _
  · exact .of_eq fun e => by cases e <;> rfl
  · split
    · exact hs
    · exact hs.setChan _ _
  · exact .of_eq fun e => by cases e <;> rfl
  · split
    · exact (abortsAtMost_regWrite .rx s _).setChan _ _
    · exact hs.setChan _ _
  · split
    · exact .of_eq fun e => by cases e <;> rfl
    · exact hs.setChan _ _
  · exact .of_eq fun e => by cases e <;> rfl
  · trivial

/-- The commands that run a DMA procedure. -/
def runsDma : Instr → Bool
  | .dmaWrite _ _ _ | .dmaRead _ | .txWrite => true
  | _ => false

theorem ownLabel_dmaLabel {i : Instr} {p : Label} {l : DmaLabel} (h : ownLabel i p = true)
    (hp : p.dmaLabel = some l) : runsDma i = true := by
  cases p <;> cases hp <;> cases i <;> first | rfl | cases h

/-- A command that runs no DMA procedure programs nothing, apart from the host's register write. -/
theorem exec_aborts {i : Instr} {s t : State} (h : exec i s = .next t) (hi : runsDma i = false)
    (hw : ∀ e : Engine, i ≠ .regWrite e.space) : AbortsAtMost s t := by
  rcases exec_writesOnly h with ⟨-, hp⟩ | ⟨-, hp⟩ | ⟨-, hp⟩
  · cases i with
    | dmaClose e => exact leadsTo_of_next (execDmaClose_aborts e s) h
    | txClose => exact leadsTo_of_next (execTxClose_aborts s) h
    | dmaOpen _ | codecEncode _ | codecDecode _ | codecCrc _ | txInit | txSetMtu =>
      exact .of_eq fun e => by rw [hp]; cases e <;> rfl
    | txReset => exact .of_eq fun e => by rw [hp.1]; cases e <;> rfl
    | dmaWrite _ _ _ | dmaRead _ | txWrite => cases hi
    | _ => exact False.elim hp
  · cases i with
    | dmaClose e => exact leadsTo_of_next (execDmaClose_aborts e s) h
    | rxClose => exact leadsTo_of_next (execRxClose_aborts s) h
    | dmaOpen _ | codecEncode _ | codecDecode _ | codecCrc _ | rxInit | rxReceive | rxRead =>
      exact .of_eq fun e => by rw [hp]; cases e <;> rfl
    | rxReset | rxStart | rxStop => exact .of_eq fun e => by rw [hp.1]; cases e <;> rfl
    | dmaWrite _ _ _ | dmaRead _ => cases hi
    | _ => exact False.elim hp
  · exact .of_eq fun e => writesOnlyBus_dmac hp e (hw e)

theorem AbortsAtMost.keepsDma {s t : State} (h : AbortsAtMost s t) (hc : t.cfg = s.cfg) (e : Engine) :
    KeepsDma e s t := by
  rcases h e with h | ⟨v, h⟩
  · exact .of_eq hc h
  · exact ⟨hc, h ▸ .writeControl e _ _ v⟩

/-- The worker that a step of a command leaves stands in a DMA read only where it stood before. -/
theorem exec_worker_w7 {i : Instr} {s t : State} {l : DmaLabel} (h : exec i s = .next t) (hl : t.worker.pc = .w7 l) :
    t.worker = s.worker := by
  by_cases hi : i = .rxReceive
  · subst hi
    rcases leadsTo_of_next (execRxReceive_tableView s) h with hv | ⟨-, rfl⟩ | ⟨-, rfl⟩
    · exact State.worker_of_tableView hv
    · simp [rvArm]
    · simp [rvSpawn] at hl
  · exact exec_worker h hi

/-- A command that runs no DMA procedure leaves an engine tame, whatever its channel. -/
theorem exec_tame_of_not_runsDma {i : Instr} {s t : State} {e : Engine} (h : exec i s = .next t)
    (hi : runsDma i = false) (hw : ∀ e : Engine, i ≠ .regWrite e.space) (hs : s.TameEngine e) : t.TameEngine e := by
  have hcfg : t.cfg = s.cfg := by rw [exec_common_frame h]
  refine hs.keeps ((exec_aborts h hi hw).keepsDma hcfg e) fun hp =>
    hp.of_parts (fun k hk => .inr ?_) fun _ k hk => .inr (exec_worker_w7 h hk)
  by_cases hc : e.channel = i.channel
  · rw [hc] at hk
    rcases (exec_steps h).there with ⟨-, hidle⟩ | ⟨-, hown⟩
    · rw [hidle] at hk
      cases hk
    · rw [ownLabel_dmaLabel hown hk] at hi
      cases hi
  · rw [(exec_steps h).others _ hc]

/-- A command of the other channel leaves an engine's procedures and controller alone. -/
theorem exec_tame_other {i : Instr} {s t : State} {e : Engine} (h : exec i s = .next t) (hi : i.channel ≠ e.channel)
    (hw : i ≠ .regWrite e.space) (hs : s.TameEngine e) : t.TameEngine e := by
  have hcfg : t.cfg = s.cfg := by rw [exec_common_frame h]
  refine hs.keeps (.of_eq hcfg (exec_dmac_other h hi hw)) fun hp =>
    hp.of_parts (fun k _ => .inr ?_) fun _ k hk => .inr (exec_worker_w7 h hk)
  rw [(exec_steps h).others _ (Ne.symm hi)]

/-- Every command but the host's register write to a controller keeps the state tame. -/
theorem exec_tame {i : Instr} {s t : State} (hw : s.cfg.wf = true) (ho : s.WorkerOwns) (hs : s.Tame)
    (h : exec i s = .next t) (hi : ∀ e : Engine, i ≠ .regWrite e.space) : t.Tame := by
  rw [State.tame_iff] at hs ⊢
  obtain ⟨hs, hwild⟩ := hs
  refine ⟨fun e => ?_, by rw [exec_common_frame h]; exact hwild⟩
  by_cases hc : i.channel = e.channel
  · cases i with
    | dmaWrite e' cyc cnf =>
      obtain rfl : e' = e := by cases e <;> cases e' <;> first | rfl | cases hc
      exact leadsTo_of_next (execDmaWrite_tame hw (hs _) cyc cnf) h
    | dmaRead e' =>
      obtain rfl : e' = e := by cases e <;> cases e' <;> first | rfl | cases hc
      exact leadsTo_of_next (execDmaRead_tame hw ho (hs _)) h
    | txWrite =>
      obtain rfl : e = .tx := by cases e <;> first | rfl | cases hc
      exact leadsTo_of_next (execTxWrite_tame hw (hs _)) h
    | _ => exact exec_tame_of_not_runsDma h rfl hi (hs e)
  · exact exec_tame_other h hc (hi e) (hs e)

/-! ## The worker, the controllers and the host -/

/-- The parts that `State.Tame` speaks of, the worker apart. -/
def State.dmaView (s : State) : Dmac × Dmac × Chan × Chan × Config × Bool :=
  (s.dtx, s.drx, s.chTx, s.chRx, s.cfg, s.faultDmaWild)

namespace State.Tame

variable {s u : State}

theorem keeps (h : s.Tame) (hk : ∀ e, KeepsDma e s u) (hwild : u.faultDmaWild = s.faultDmaWild)
    (hc : ∀ (e : Engine) k, (u.chan e.channel).pc.dmaLabel = some k →
      k = .d1 ∨ (u.chan e.channel).procedure = (s.chan e.channel).procedure)
    (hw : ∀ k, u.worker.pc = .w7 k → k = .d1 ∨ u.worker = s.worker) : u.Tame := by
  rw [State.tame_iff] at h ⊢
  obtain ⟨h, hs⟩ := h
  exact ⟨fun e => (h e).keeps (hk e) fun hp => hp.of_parts (hc _) fun _ => hw, hwild.trans hs⟩

/-- An update of the worker beside parts that do not matter. -/
theorem workerMove (h : s.Tame) (hv : u.dmaView = s.dmaView)
    (hw : ∀ k, u.worker.pc = .w7 k → k = .d1 ∨ u.worker = s.worker) : u.Tame := by
  simp only [State.dmaView, Prod.mk.injEq] at hv
  obtain ⟨hdtx, hdrx, hctx, hcrx, hcfg, hwild⟩ := hv
  refine h.keeps (fun e => .of_eq hcfg ?_) hwild (fun e k _ => .inr (congrArg Chan.procedure ?_)) hw
  · cases e
    · exact hdtx
    · exact hdrx
  · cases e
    · exact hctx
    · exact hcrx

theorem congr (h : s.Tame) (hv : u.dmaView = s.dmaView) (hw : u.worker = s.worker) : u.Tame :=
  h.workerMove hv fun _ _ => .inr hw

/-- A step of one controller. -/
theorem setDmac (h : s.Tame) (e : Engine) {d : Dmac} (hd : (s.dmac e).KeepsProgram e d) : (s.setDmac e d).Tame := by
  refine h.keeps (fun e' => ?_) (State.setDmac_faultDmaWild ..) (fun e' k _ => .inr ?_) fun k _ =>
    .inr (State.setDmac_worker ..)
  · by_cases he : e' = e
    · subst he
      exact ⟨State.setDmac_cfg .., by rwa [State.dmac_setDmac_same]⟩
    · exact .of_eq (State.setDmac_cfg ..) (State.dmac_setDmac_other _ _ _ _ he)
  · rw [(keepsChannels_setDmac e d s).chan e'.channel]

end State.Tame

theorem wWait_tame {s : State} (h : s.Tame) : (wWait s).Tame := by
  unfold wWait
  split
  · exact h
  next hu =>
    rcases State.irqWait_eq_some hu with ⟨-, -, -, rfl⟩ | ⟨-, -, -, rfl⟩ | ⟨-, -, -, rfl⟩ <;>
      exact h.workerMove rfl fun _ hk => nomatch hk

theorem wTimeout_tame {s : State} (h : s.Tame) : (wTimeout s).Tame := by
  unfold wTimeout
  split
  · dsimp only
    split <;> exact h.workerMove rfl fun _ hk => nomatch hk
  · exact h.workerMove rfl fun _ hk => nomatch hk

theorem wWoke_tame {s : State} (h : s.Tame) : (wWoke s).Tame := by
  unfold wWoke
  split
  · exact h.workerMove rfl fun _ hk => nomatch hk
  · split
    · exact h.workerMove rfl fun _ hk => nomatch hk
    · exact wTimeout_tame h
    · exact h.workerMove rfl fun _ hk => nomatch hk

/-- The worker reads while it lives, so no command past its first step shares the engine with it (R513). -/
theorem wRead_tame {s : State} {l : DmaLabel} (hw : s.cfg.wf = true) (ho : s.WorkerOwns) (h : s.Tame)
    (hpc : s.worker.pc = .w7 l) : (wRead l s).Tame := by
  unfold wRead
  split
  next l' d' t hs =>
    have hd := dmaStep_keeps .rx l s.worker.dma s
    rw [hs] at hd
    obtain ⟨ht, hoff, hsize, -⟩ := hd
    have hframe := ht.eq_frame
    have hchan := (keepsChannels_dmaStep_go hs).chan
    rw [State.tame_iff] at h ⊢
    obtain ⟨h, hwild⟩ := h
    refine ⟨fun e => ?_, by rw [hframe]; exact hwild⟩
    cases e with
    | tx =>
      refine (h .tx).keeps (.of_eq (by rw [hframe]) (ht.dmac_other (e' := .tx) (by decide))) fun hp => ?_
      exact hp.of_parts (fun _ _ => .inr (congrArg Chan.procedure (hchan .tx))) nofun
    | rx =>
      refine (h .rx).dmaStep_go hw hs (.readRx hpc) rfl rfl fun {k _ _} hp => ?_
      cases hp with
      | commandRx hl =>
        have hl' : s.chRx.pc = .dma k := (congrArg Chan.pc (hchan .rx)).symm.trans hl
        by_cases hk : k = .d1
        · exact .inl hk
        · have hdead := ho.deadWhereNeeded (by simp [hl', Label.needsDeadWorker, hk])
          rw [hdead] at hpc
          cases hpc
      | readRx hl =>
        cases hl
        exact .inr ⟨rfl, hoff, hsize⟩
  next hs =>
    obtain rfl := eq_of_dmaStep_ret hs
    exact h.workerMove rfl fun _ hk => nomatch hk
  next hs =>
    obtain rfl := eq_of_dmaStep_ret hs
    exact h.workerMove rfl fun _ hk => nomatch hk
  next hs =>
    obtain rfl := eq_of_dmaStep_ret hs
    exact h.workerMove rfl fun _ hk => nomatch hk
  · exact h

theorem workerStep_tame {s : State} (hw : s.cfg.wf = true) (ho : s.WorkerOwns) (h : s.Tame) :
    (workerStep s).Tame := by
  unfold workerStep
  split
  · exact h
  · split <;> exact h.workerMove rfl fun _ hk => nomatch hk
  · exact h.workerMove rfl fun _ hk => nomatch hk
  · exact wWait_tame h
  · exact wWoke_tame h
  · unfold wLength
    dsimp only
    split <;> exact h.workerMove rfl fun _ hk => nomatch hk
  · unfold wPlace
    split
    · exact h.workerMove rfl fun _ hk => nomatch hk
    · exact h.workerMove rfl fun _ hk => .inl (by cases hk; rfl)
  next hpc => exact wRead_tame hw ho h hpc
  · unfold wPublish
    split <;> exact h.workerMove rfl fun _ hk => nomatch hk
  · exact h.workerMove rfl fun _ hk => nomatch hk

/-- The head of a tame queue is inside the window, so no transfer is dropped as wild (R202). -/
theorem dmacStep_tame {s : State} (e : Engine) (h : s.Tame) : (dmacStep e s).Tame := by
  have hin : ∀ r rest, (s.dmac e).queue = r :: rest → r.inside s.cfg e = true := fun r rest hq =>
    ((State.tame_iff s).1 h).1 e |>.queue r (hq ▸ List.mem_cons_self)
  unfold dmacStep
  dsimp only
  split
  · exact h
  next r rest hq =>
    split
    · exact h
    · split
      · exact h.setDmac e (.start e hq)
      · cases e
        case tx =>
          dsimp only
          split
          · exact h
          · rw [if_pos (hin r rest hq)]
            exact (h.setDmac .tx (.complete .tx hq)).congr rfl rfl
        case rx =>
          dsimp only
          split
          · exact h
          · rw [if_pos (hin r rest hq)]
            refine (h.setDmac .rx (.complete .rx hq)).congr ?_ ?_ <;>
            · dsimp only [completeRx]
              rw [State.scatter_frame]
              rfl

theorem modemRxStep_tame {s : State} (len : U32) (f : List Byte) (h : s.Tame) : (modemRxStep len f s).Tame := by
  unfold modemRxStep
  split
  · exact h.congr rfl rfl
  · exact h

theorem dmaLabel_firstLabel {i : Instr} {k : DmaLabel} (h : (firstLabel i).dmaLabel = some k) : k = .d1 := by
  cases i <;> cases h <;> rfl

/-- An issue puts its channel at the first step of a procedure at most (R18). -/
theorem begin_tame {s : State} (i : Instr) (w : U32) (h : s.Tame) : (s.begin i w).Tame := by
  have hk : ∀ e, KeepsDma e s (s.begin i w) := fun e =>
    .of_eq (State.setChan_cfg ..) (by cases e <;> simp [State.begin])
  refine h.keeps hk (State.setChan_faultDmaWild ..) (fun e k hl => ?_) fun _ _ => .inr (State.setChan_worker ..)
  by_cases he : e.channel = i.channel
  · rw [he, State.pc_begin] at hl
    exact .inl (dmaLabel_firstLabel hl)
  · rw [State.chan_begin_other _ _ _ he]
    exact .inr rfl

/-- A written argument is no latched operand (R102). -/
theorem setArg_tame {s : State} (c : Channel) (a : Operands) (h : s.Tame) :
    (s.setChan c { s.chan c with arg := a }).Tame := by
  have hk : ∀ e, KeepsDma e s (s.setChan c { s.chan c with arg := a }) := fun e =>
    .of_eq (State.setChan_cfg ..) (by cases e <;> simp)
  refine h.keeps hk (State.setChan_faultDmaWild ..) (fun e k _ => .inr ?_) fun _ _ => .inr (State.setChan_worker ..)
  by_cases he : e.channel = c
  · rw [he, State.chan_setChan_same]
    rfl
  · rw [State.chan_setChan_other _ _ _ _ he]

theorem hostStep_tame {a : HostAct} {s t : State} (h : s.Tame) (ht : hostStep a s = .next t) : t.Tame := by
  cases a with
  | writeArg c i v =>
    simp only [hostStep] at ht
    split at ht <;> cases ht
    · exact h
    · exact setArg_tame c _ h
  | issue w =>
    cases ht
    rcases s.issue_cases w with ⟨i, -, -, hi⟩ | ⟨st, hi⟩ <;> rw [hi]
    · exact begin_tame i w h
    · exact h.congr rfl rfl
  | readReg r =>
    simp only [hostStep] at ht
    split at ht <;> cases ht
    · exact h
    · exact h.congr rfl rfl
  | readMem a n =>
    simp only [hostStep] at ht
    split at ht <;> cases ht
    exact h.congr rfl rfl
  | writeMem a bs =>
    simp only [hostStep] at ht
    split at ht <;> cases ht
    exact h.congr rfl rfl

theorem resetEvent_tame (s : State) : s.resetEvent.Tame :=
  { queueTx := nofun, queueRx := nofun, commandTx := nofun, commandRx := nofun, flushTx := nofun, readRx := nofun,
    noWild := rfl }

theorem channelStep_tame {c : Channel} {s t : State} (hw : s.cfg.wf = true) (ho : s.WorkerOwns) (hs : s.Tame)
    (hn : ¬ (s.hostWritesController ∧ c = .bus)) (h : channelStep c s = .next t) : t.Tame := by
  rcases channelStep_eq_next h with ⟨-, rfl⟩ | ⟨hb, i, hd, rfl, hi⟩
  · exact hs
  · refine exec_tame hw ho hs hi fun e he => hn ?_
    subst he
    exact ⟨⟨hb, e.space, hd, by cases e <;> simp [Engine.space]⟩, rfl⟩

/-- Settles O29: the engine procedures by `dmaStep_programmed` and `dmaStep_queue`; every other move programs nothing. -/
theorem proceduresNeverProgramWild : Obligations.ProceduresNeverProgramWild := by
  unfold Obligations.ProceduresNeverProgramWild
  intro m s t hw ho hs hn h
  obtain ⟨u, hu, rfl⟩ := act_eq_next h
  refine State.Tame.congr (s := u) ?_ rfl rfl
  cases m with
  | host a => exact hostStep_tame hs hu
  | channel c p =>
    refine channelStep_tame (s := { s with pick := p }) hw (ho.congr rfl rfl rfl rfl) (hs.congr rfl rfl) (fun ⟨hc, hb⟩ => ?_) hu
    exact hn ⟨hc, p, by rw [hb]⟩
  | worker p =>
    cases hu
    exact workerStep_tame (s := { s with pick := p }) hw (ho.congr rfl rfl rfl rfl) (hs.congr rfl rfl)
  | dmac e =>
    cases hu
    exact dmacStep_tame e hs
  | modemRx len f =>
    cases hu
    exact modemRxStep_tame len f hs
  | modemTx =>
    cases hu
    exact hs
  | clock =>
    cases hu
    exact hs.congr rfl rfl
  | reset =>
    cases hu
    exact resetEvent_tame s

end Sys2Proof.Machine
end

section
/-! SUPPORT. The frame counter, the offset table and the running offset stay in order (R211, R834, R835, R840, R841): one rule
per kind of update, the publish step, and every move. -/

namespace Sys2Proof.Machine

/-! ## What the order depends on -/

/-- The counter, the table and the running offset, with what the table's free values and bounds depend on. -/
def State.tableCore (s : State) : U32 × Sparse U32 × Nat × Config × Nat :=
  (s.rx.count, s.rx.table, s.rx.nextOff, s.cfg, s.epoch)

theorem State.tableCore_of_tableView {s t : State} (h : t.tableView = s.tableView) : t.tableCore = s.tableCore :=
  congrArg (fun v => (v.1, v.2.1, v.2.2.1, v.2.2.2.2)) h

theorem State.tableAt_congr {s t : State} (h : t.tableCore = s.tableCore) (j : Nat) : t.tableAt j = s.tableAt j := by
  simp only [State.tableCore, Prod.mk.injEq] at h
  obtain ⟨-, htable, -, -, hepoch⟩ := h
  rw [State.tableAt, State.tableAt, htable, hepoch]

/-- The consumer's labels past the test of the count (R812): RV7 to RV10. -/
def Label.pastFirst : Label → Bool
  | .rv7 | .rv8 | .rv9 | .rv10 => true
  | _ => false

theorem Label.pastFirst_iff (p : Label) : p.pastFirst = true ↔ p = .rv7 ∨ p = .rv8 ∨ p = .rv9 ∨ p = .rv10 := by
  cases p <;> simp [Label.pastFirst]

/-- A worker whose frame fits has placed it. -/
theorem WLabel.framePlaced_of_frameFits {p : WLabel} (h : p.frameFits = true) : p.framePlaced = true := by
  cases p <;> first | rfl | cases h

namespace State.TableOrdered

variable {s u : State}

/-- An update that leaves the table and its counters: what remains to be shown is what the worker and the consumer carry. -/
theorem update (h : s.TableOrdered) (hv : u.tableCore = s.tableCore)
    (halive : u.worker.pc ≠ .dead → s.worker.pc ≠ .dead ∨ s.rx.count = 0#32 ∧ s.rx.nextOff = 0)
    (hlength : u.worker.pc = .w6 ∨ u.worker.pc.framePlaced = true → u.worker.len ≠ 0#32)
    (hplaced : u.worker.pc.framePlaced = true →
      u.worker.off = s.rx.nextOff ∧ u.worker.dma.off = u.worker.off ∧ u.worker.dma.size = u.worker.len ∧
        s.rx.count.toNat < s.cfg.tableCap)
    (hfits : u.worker.pc.frameFits = true → u.worker.off + u.worker.len.toNat ≤ s.cfg.bufSizeRx)
    (harmed : u.chRx.pc = .rv4 → s.rx.count = 0#32 ∧ s.rx.nextOff = 0)
    (hcounted : u.chRx.pc.pastFirst = true → 0 < s.rx.count.toNat) : u.TableOrdered := by
  have htab := State.tableAt_congr hv
  simp only [State.tableCore, Prod.mk.injEq] at hv
  obtain ⟨hcount, htable, hnext, hcfg, -⟩ := hv
  exact
    { countBound := by rw [hcount, hcfg]; exact h.countBound
      tableBound := by rw [htable, hcfg]; exact h.tableBound
      published := by rw [hcount, htable]; exact h.published
      firstAtZero := by rw [hcount, htab]; exact h.firstAtZero
      increasing := fun j hj => by rw [htab, htab]; exact h.increasing j (hcount ▸ hj)
      entryInBuffer := fun j hj => by rw [htab, hcfg]; exact h.entryInBuffer j (hcount ▸ hj)
      lastBelowNext := fun ha hpos => by
        rw [hcount] at hpos ⊢
        rw [htab, hnext]
        rcases halive ha with ha | ⟨h0, -⟩
        · exact h.lastBelowNext ha hpos
        · simp [h0] at hpos
      startAtZero := fun ha h0 => by
        rw [hcount] at h0
        rw [hnext]
        exact (halive ha).elim (fun ha => h.startAtZero ha h0) And.right
      armed := by rw [hcount, hnext]; exact harmed
      lengthLegal := hlength
      placed := by rw [hcount, hnext, hcfg]; exact hplaced
      fits := by rw [hcfg]; exact hfits
      counted := fun hp => by rw [hcount]; exact hcounted ((Label.pastFirst_iff _).2 hp) }

/-- An update beside the table and the worker: only the consumer's label counts. -/
theorem congr (h : s.TableOrdered) (hv : u.tableView = s.tableView)
    (harmed : u.chRx.pc = .rv4 → s.rx.count = 0#32 ∧ s.rx.nextOff = 0)
    (hcounted : u.chRx.pc.pastFirst = true → 0 < s.rx.count.toNat) : u.TableOrdered := by
  have hw := State.worker_of_tableView hv
  refine h.update (State.tableCore_of_tableView hv) ?_ ?_ ?_ ?_ harmed hcounted <;> rw [hw]
  · exact .inl
  · exact h.lengthLegal
  · exact h.placed
  · exact h.fits

/-- An update beside the table, the worker and the consumer's label. -/
theorem same (h : s.TableOrdered) (hv : u.tableView = s.tableView) (hpc : u.chRx.pc = s.chRx.pc) : u.TableOrdered :=
  h.congr hv (fun hp => h.armed (hpc ▸ hp)) fun hp => h.counted ((Label.pastFirst_iff _).1 (hpc ▸ hp))

/-- A move of a living worker to a label at which it carries no frame. -/
theorem moveWorker (h : s.TableOrdered) (hv : u.tableCore = s.tableCore) (hpc : u.chRx.pc = s.chRx.pc)
    (halive : s.worker.pc ≠ .dead) (h6 : u.worker.pc ≠ .w6) (hp : u.worker.pc.framePlaced = false) : u.TableOrdered := by
  refine h.update hv (fun _ => .inl halive) (fun hl => ?_) (fun hl => ?_) (fun hl => ?_)
    (fun hl => h.armed (hpc ▸ hl)) fun hl => h.counted ((Label.pastFirst_iff _).1 (hpc ▸ hl))
  · rcases hl with hl | hl
    · exact absurd hl h6
    · simp [hp] at hl
  · simp [hp] at hl
  · simp [WLabel.framePlaced_of_frameFits hl] at hp

/-- With no frame counted and no living worker only the table's bound is left to keep. -/
theorem cleared (hcap : ∀ p ∈ u.rx.table, p.1 < u.cfg.tableCap) (hcount : u.rx.count = 0#32)
    (hdead : u.worker.pc = .dead) (harmed : u.chRx.pc = .rv4 → u.rx.nextOff = 0)
    (hpast : u.chRx.pc.pastFirst = false) : u.TableOrdered := by
  have hnone : ∀ j, ¬ j < u.rx.count.toNat := fun j => by rw [hcount]; exact Nat.not_lt_zero j
  exact
    { countBound := by rw [hcount]; exact Nat.zero_le _
      tableBound := hcap
      published := fun j hj => absurd hj (hnone j)
      firstAtZero := fun h0 => absurd h0 (hnone 0)
      increasing := fun j hj => absurd hj (hnone (j + 1))
      entryInBuffer := fun j hj => absurd hj (hnone j)
      lastBelowNext := fun ha => absurd hdead ha
      startAtZero := fun ha => absurd hdead ha
      armed := fun hp => ⟨hcount, harmed hp⟩
      lengthLegal := by simp [hdead, WLabel.framePlaced]
      placed := by simp [hdead, WLabel.framePlaced]
      fits := by simp [hdead, WLabel.frameFits]
      counted := fun hp => by simp [(Label.pastFirst_iff _).2 hp] at hpast }

/-- An RX command that leaves the table, the worker and its label's group. -/
theorem setChanRx {y : Chan} (h : s.TableOrdered) (hv : u.tableView = s.tableView) (ha : y.pc ≠ .rv4)
    (hp : y.pc.pastFirst = true → 0 < s.rx.count.toNat) : (u.setChan .rx y).TableOrdered :=
  h.congr ((State.tableView_setChan u .rx y).trans hv) (fun hl => absurd hl ha) hp

theorem gotoRx {p : Label} (h : s.TableOrdered) (hv : u.tableView = s.tableView) (ha : p ≠ .rv4)
    (hp : p.pastFirst = true → 0 < s.rx.count.toNat) : (u.goto .rx p).TableOrdered :=
  h.setChanRx hv ha hp

theorem finishRx {st : Status} {vs : List U32} (h : s.TableOrdered) (hv : u.tableView = s.tableView) :
    (u.finish .rx st vs).TableOrdered :=
  h.setChanRx hv nofun nofun

end State.TableOrdered

/-! ## The worker (R830 to R836) -/

section Worker

variable {s : State}

theorem wWait_tableOrdered (h : s.TableOrdered) (ha : s.worker.pc ≠ .dead) : (wWait s).TableOrdered := by
  unfold wWait
  split
  · exact h
  next hu =>
    rcases State.irqWait_eq_some hu with ⟨-, -, -, rfl⟩ | ⟨-, -, -, rfl⟩ | ⟨-, -, -, rfl⟩ <;>
      exact h.moveWorker rfl rfl ha nofun rfl

theorem wTimeout_tableOrdered (h : s.TableOrdered) (ha : s.worker.pc ≠ .dead) : (wTimeout s).TableOrdered := by
  unfold wTimeout
  split
  · dsimp only
    split <;> exact h.moveWorker rfl rfl ha nofun rfl
  · exact h.moveWorker rfl rfl ha nofun rfl

theorem wWoke_tableOrdered (h : s.TableOrdered) (ha : s.worker.pc ≠ .dead) : (wWoke s).TableOrdered := by
  unfold wWoke
  split
  · exact h.moveWorker rfl rfl ha nofun rfl
  · split
    · exact h.moveWorker rfl rfl ha nofun rfl
    · exact wTimeout_tableOrdered h ha
    · exact h.moveWorker rfl rfl ha nofun rfl

/-- A length that passes the test is not 0 (R832). -/
theorem wLength_tableOrdered (h : s.TableOrdered) (ha : s.worker.pc ≠ .dead) : (wLength s).TableOrdered := by
  unfold wLength
  dsimp only
  split
  · exact h.moveWorker rfl rfl ha nofun rfl
  next hl =>
    have hne : s.regRead (.mrx .payloadLen) ≠ 0#32 := fun h0 => hl (by simp [lenInvalid, h0])
    exact h.update rfl (fun _ => .inl ha) (fun _ => hne) nofun nofun h.armed
      fun hp => h.counted ((Label.pastFirst_iff _).1 hp)

/-- The worker goes on to read only where the table has room (R841). -/
theorem wPlace_tableOrdered (h : s.TableOrdered) (hpc : s.worker.pc = .w6) : (wPlace s).TableOrdered := by
  have ha : s.worker.pc ≠ .dead := by rw [hpc]; decide
  unfold wPlace
  split
  · exact h.moveWorker rfl rfl ha nofun rfl
  next hroom =>
    exact h.update rfl (fun _ => .inl ha) (fun _ => h.lengthLegal (.inl hpc))
      (fun _ => ⟨rfl, rfl, rfl, Nat.lt_of_le_of_ne h.countBound hroom⟩) nofun h.armed
      fun hp => h.counted ((Label.pastFirst_iff _).1 hp)

/-- A step of the worker's DMA read keeps its range; past the size check the frame fits (R504, R833). -/
theorem wRead_tableOrdered {l : DmaLabel} (h : s.TableOrdered) (hpc : s.worker.pc = .w7 l) :
    (wRead l s).TableOrdered := by
  have ha : s.worker.pc ≠ .dead := by rw [hpc]; nofun
  have hplaced := h.placed (by rw [hpc]; rfl)
  have hlength := h.lengthLegal (.inr (by rw [hpc]; rfl))
  have hpast := fun hp => h.counted ((Label.pastFirst_iff s.chRx.pc).1 hp)
  obtain ⟨hnext, hdoff, hdsize, hroom⟩ := hplaced
  unfold wRead
  split
  next l' d' t hs =>
    have hd := dmaStep_keeps .rx l s.worker.dma s
    rw [hs] at hd
    obtain ⟨ht, hoff, hsize, -⟩ := hd
    have hframe := ht.eq_frame
    have hfits : s.worker.off + s.worker.len.toNat ≤ s.cfg.bufSizeRx := by
      by_cases hl : l = .d1
      · subst hl
        obtain ⟨-, -, hpos, hfit⟩ := dmaCheck_eq_go hs
        rw [s32_eq_toNat hpos, hdoff, hdsize] at hfit
        exact_mod_cast hfit
      · exact h.fits (by simp [hpc, WLabel.frameFits, hl])
    rw [hframe]
    exact h.update rfl (fun _ => .inl ha) (fun _ => hlength)
      (fun _ => ⟨hnext, hoff.trans hdoff, hsize.trans hdsize, hroom⟩) (fun _ => hfits) h.armed hpast
  next hs =>
    obtain rfl := eq_of_dmaStep_ret hs
    have hl : l ≠ .d1 := by
      rintro rfl
      rcases dmaStep_status hs with ⟨-, -, hst | hst | ⟨-, hzero, -⟩⟩ | ⟨hst, -⟩ | ⟨hst, -⟩
      · cases hst
      · cases hst
      · exact hlength (hdsize.symm.trans hzero)
      · cases hst
      · cases hst
    exact h.update rfl (fun _ => .inl ha) (fun _ => hlength)
      (fun _ => ⟨hnext, hdoff, hdsize, hroom⟩) (fun _ => h.fits (by simp [hpc, WLabel.frameFits, hl])) h.armed hpast
  next hs =>
    obtain rfl := eq_of_dmaStep_ret hs
    exact h.moveWorker rfl rfl ha nofun rfl
  next hs =>
    obtain rfl := eq_of_dmaStep_ret hs
    exact h.moveWorker rfl rfl ha nofun rfl
  · exact h

theorem Config.wf_bufSize_lt {c : Config} (h : c.wf = true) (e : Engine) : c.bufSize e < 2 ^ 31 := by
  have h' := h
  simp only [Config.wf] at h'
  cases e <;> simp_all [Config.bufSizeOk]

theorem tableCap_le_bufSize (c : Config) : c.tableCap ≤ c.bufSizeRx := Nat.div_le_self ..

/-- The running offset moves past the frame just published (R835). -/
theorem le_advance (c : Config) (len k : Nat) : len ≤ advance c len k := by
  unfold advance
  split
  · omega
  · exact Nat.le_refl _

theorem Sparse.get_write_single {α : Type} (m : Sparse α) (a x : Nat) (v : α) :
    Sparse.get? (Sparse.write m a [v]) x = if x = a then some v else Sparse.get? m x := by
  split
  next hx =>
    subst hx
    rw [Sparse.get_write_inside (Nat.le_refl _) (Nat.lt_succ_self _)]
    simp
  next hx => exact Sparse.get_write_outside (by simp; omega)

/-- The publish step of a cycle that is not done (R834). -/
theorem wPublish_open (hd : s.rx.done = false) : wPublish s = { s with
    worker := { s.worker with pc := .w1 }
    rx := { s.rx with
      table := Sparse.write s.rx.table s.rx.count.toNat [u32 s.worker.off]
      count := s.rx.count + 1#32
      tmoCount := 0
      nextOff := s.worker.off + advance s.cfg s.worker.len.toNat (s.rx.count + 1#32).toNat } } := by
  simp [wPublish, hd, State.wgoto]

theorem tableAt_wPublish (hd : s.rx.done = false) (j : Nat) :
    (wPublish s).tableAt j = if j = s.rx.count.toNat then u32 s.worker.off else s.tableAt j := by
  rw [wPublish_open hd, State.tableAt, State.tableAt, Sparse.get_write_single]
  split <;> rfl

/-- Publishing appends one entry at the running offset, past the last one, and moves the running offset past its frame
(R834, R835). -/
theorem wPublish_tableOrdered (hw : s.cfg.wf = true) (ho : s.WorkerOwns) (h : s.TableOrdered) (hpc : s.worker.pc = .w8) :
    (wPublish s).TableOrdered := by
  have ha : s.worker.pc ≠ .dead := by rw [hpc]; decide
  cases hd : s.rx.done with
  | true =>
    simp only [wPublish, hd, if_true]
    exact h.moveWorker rfl rfl ha nofun rfl
  | false =>
    obtain ⟨hnext, -, -, hroom⟩ := h.placed (by rw [hpc]; rfl)
    have hfits := h.fits (by rw [hpc]; rfl)
    have hlen : 0 < s.worker.len.toNat := Nat.pos_of_ne_zero fun h0 =>
      h.lengthLegal (.inr (by rw [hpc]; rfl)) (BitVec.eq_of_toNat_eq h0)
    have hbuf : s.cfg.bufSizeRx < 2 ^ 31 := Config.wf_bufSize_lt hw .rx
    have hcap := tableCap_le_bufSize s.cfg
    have hadv := le_advance s.cfg s.worker.len.toNat (s.rx.count + 1#32).toNat
    have hcount : (s.rx.count + 1#32).toNat = s.rx.count.toNat + 1 := by
      rw [BitVec.toNat_add]
      exact Nat.mod_eq_of_lt (by simp; omega)
    have hentry : (u32 s.worker.off).toNat = s.worker.off := by
      rw [u32, BitVec.toNat_ofNat]
      exact Nat.mod_eq_of_lt (by omega)
    have htab := tableAt_wPublish hd
    have hcfg : (wPublish s).cfg = s.cfg := by rw [wPublish_open hd]
    have hn : (wPublish s).rx.count.toNat = s.rx.count.toNat + 1 := by rw [wPublish_open hd]; exact hcount
    have htable : (wPublish s).rx.table = Sparse.write s.rx.table s.rx.count.toNat [u32 s.worker.off] := by
      rw [wPublish_open hd]
    have hlast : ∀ j, j + 1 = s.rx.count.toNat → (s.tableAt j).toNat < s.worker.off := fun j hj => by
      have hl := h.lastBelowNext ha (by omega)
      rw [hnext, show j = s.rx.count.toNat - 1 by omega]
      exact hl
    have hpc1 : (wPublish s).worker.pc = .w1 := by rw [wPublish_open hd]
    exact
      { countBound := by rw [hn, hcfg]; exact hroom
        tableBound := by
          rw [htable, hcfg]
          exact Sparse.write_below h.tableBound hroom
        published := fun j hj => by
          rw [hn] at hj
          rw [htable, Sparse.get_write_single]
          split
          · rfl
          · exact h.published j (by omega)
        firstAtZero := fun _ => by
          rw [htab]
          split
          next h0 =>
            rw [hnext, h.startAtZero ha (BitVec.eq_of_toNat_eq h0.symm)]
            rfl
          · exact h.firstAtZero (by omega)
        increasing := fun j hj => by
          rw [hn] at hj
          rw [htab, htab, if_neg (by omega)]
          split
          · rw [hentry]
            exact hlast j ‹_›
          · exact h.increasing j (by omega)
        entryInBuffer := fun j hj => by
          rw [hn] at hj
          rw [htab, hcfg]
          split
          · omega
          · exact h.entryInBuffer j (by omega)
        lastBelowNext := fun _ _ => by
          rw [hn, Nat.add_sub_cancel, htab, if_pos rfl, hentry, wPublish_open hd]
          exact Nat.lt_add_of_pos_right (by omega)
        startAtZero := fun _ h0 => by simp [h0] at hn
        armed := fun hp => by
          have hp' : s.chRx.pc = .rv4 := by rw [wPublish_open hd] at hp; exact hp
          exact absurd (ho.deadWhereNeeded (by rw [hp']; rfl)) ha
        lengthLegal := by simp [hpc1, WLabel.framePlaced]
        placed := by simp [hpc1, WLabel.framePlaced]
        fits := by simp [hpc1, WLabel.frameFits]
        counted := fun _ => by rw [hn]; exact Nat.succ_pos _ }

theorem workerStep_tableOrdered (hw : s.cfg.wf = true) (ho : s.WorkerOwns) (h : s.TableOrdered) :
    (workerStep s).TableOrdered := by
  unfold workerStep
  split
  · exact h
  next hpc =>
    have ha : s.worker.pc ≠ .dead := by rw [hpc]; decide
    split <;> exact h.moveWorker rfl rfl ha nofun rfl
  next hpc => exact h.moveWorker rfl rfl (by rw [hpc]; decide) nofun rfl
  next hpc => exact wWait_tableOrdered h (by rw [hpc]; decide)
  next hpc => exact wWoke_tableOrdered h (by rw [hpc]; decide)
  next hpc => exact wLength_tableOrdered h (by rw [hpc]; decide)
  next hpc => exact wPlace_tableOrdered h hpc
  next hpc => exact wRead_tableOrdered h hpc
  next hpc => exact wPublish_tableOrdered hw ho h hpc
  next hpc => exact h.moveWorker rfl rfl (by rw [hpc]; decide) nofun rfl

end Worker

/-! ## RX.RECEIVE (R810 to R815) -/

section RxReceive

variable {s : State}

/-- The cycle begins with no frame and the running offset at 0, while no worker lives (R811). -/
theorem rvArm_tableOrdered (ho : s.WorkerOwns) (h : s.TableOrdered) (hpc : s.chRx.pc = .rv3) :
    (rvArm s).TableOrdered :=
  .cleared h.tableBound rfl (ho.deadWhereNeeded (by rw [hpc]; rfl)) (fun _ => rfl) rfl

/-- The worker is spawned with no frame counted (R811). -/
theorem rvSpawn_tableOrdered (h : s.TableOrdered) (hpc : s.chRx.pc = .rv4) : (rvSpawn s).TableOrdered :=
  h.update rfl (fun _ => .inr (h.armed hpc)) nofun nofun nofun nofun nofun

theorem rvCheck_tableOrdered (h : s.TableOrdered) : (rvCheck s).TableOrdered := by
  unfold rvCheck
  split
  · exact h.finishRx rfl
  · split
    · exact h.finishRx rfl
    · exact h.gotoRx rfl nofun nofun

theorem rvWait_tableOrdered (h : s.TableOrdered) (p : Bool) {onWake onExpire : Label} (hw : onWake ≠ .rv4)
    (he : onExpire ≠ .rv4) (hpw : onWake.pastFirst = true → 0 < s.rx.count.toNat)
    (hpe : onExpire.pastFirst = true → 0 < s.rx.count.toNat) : (rvWait p onWake onExpire s).TableOrdered := by
  unfold rvWait
  split
  · split
    · exact h.gotoRx rfl hw hpw
    · exact h
  · split
    · exact h.gotoRx rfl he hpe
    · exact h
  · exact h

/-- The consumer goes on past its first wait only with a frame counted (R812). -/
theorem rvFirst_tableOrdered (h : s.TableOrdered) : (rvFirst s).TableOrdered := by
  unfold rvFirst
  split
  · exact h.finishRx rfl
  next hne => exact h.gotoRx rfl nofun fun _ => Nat.pos_of_ne_zero fun h0 => hne (BitVec.eq_of_toNat_eq h0)

theorem rvValidate_tableOrdered (h : s.TableOrdered) (hpos : 0 < s.rx.count.toNat) : (rvValidate s).TableOrdered := by
  unfold rvValidate
  dsimp only
  split
  · exact h.gotoRx rfl nofun fun _ => hpos
  · exact h.finishRx rfl

theorem rvLoop_tableOrdered (h : s.TableOrdered) (hpos : 0 < s.rx.count.toNat) : (rvLoop s).TableOrdered := by
  unfold rvLoop
  split
  · exact h.finishRx rfl
  · split
    · exact h.finishRx rfl
    · exact h.setChanRx rfl nofun fun _ => hpos

theorem rvLast_tableOrdered (h : s.TableOrdered) : (rvLast s).TableOrdered := by
  unfold rvLast
  split
  · exact h.finishRx rfl
  · exact h.finishRx rfl

theorem execRxReceive_tableOrdered (ho : s.WorkerOwns) (h : s.TableOrdered) :
    leadsTo State.TableOrdered (execRxReceive s) := by
  have hpast := fun hp => h.counted ((Label.pastFirst_iff s.chRx.pc).1 hp)
  unfold execRxReceive
  split
  · exact rvCheck_tableOrdered h
  · split
    · exact h
    · exact h.gotoRx rfl nofun nofun
  next hpc => exact rvArm_tableOrdered ho h hpc
  next hpc => exact rvSpawn_tableOrdered h hpc
  · exact rvWait_tableOrdered h _ nofun nofun nofun nofun
  · exact rvFirst_tableOrdered h
  next hpc => exact rvValidate_tableOrdered h (hpast (by rw [hpc]; rfl))
  next hpc => exact rvLoop_tableOrdered h (hpast (by rw [hpc]; rfl))
  next hpc =>
    have hpos := hpast (by rw [hpc]; rfl)
    exact rvWait_tableOrdered h _ nofun nofun (fun _ => hpos) fun _ => hpos
  · exact rvLast_tableOrdered h
  · trivial

end RxReceive

/-! ## The other commands -/

section Commands

variable {i : Instr} {s t : State}

theorem eq_rxReceive_of_ownLabel {p : Label} (h : ownLabel i p = true) (hp : p = .rv4 ∨ p.pastFirst = true) :
    i = .rxReceive := by
  have hi : ownLabel i .rv4 = true ∨ ownLabel i .rv7 = true ∨ ownLabel i .rv8 = true ∨ ownLabel i .rv9 = true ∨
      ownLabel i .rv10 = true := by
    rcases hp with rfl | hp
    · exact .inl h
    · rcases (Label.pastFirst_iff p).1 hp with rfl | rfl | rfl | rfl <;> simp [h]
  cases i <;> first | rfl | simp [ownLabel] at hi

/-- The label that an RX command other than RX.RECEIVE leaves. -/
theorem exec_chRx_pc_own (hi : i ≠ .rxReceive) (hc : i.channel = .rx) (h : exec i s = .next t) :
    t.chRx.pc ≠ .rv4 ∧ t.chRx.pc.pastFirst = false := by
  have hthere := (exec_steps h).there
  rw [hc] at hthere
  rcases hthere with ⟨-, hidle⟩ | ⟨-, hl⟩
  · have hidle : t.chRx.pc = .idle := hidle
    rw [hidle]
    exact ⟨nofun, rfl⟩
  · exact ⟨fun h4 => hi (eq_rxReceive_of_ownLabel hl (.inl h4)),
      Bool.eq_false_iff.2 fun hp => hi (eq_rxReceive_of_ownLabel hl (.inr hp))⟩

/-- The consumer's label under a command that is not RX.RECEIVE. -/
theorem exec_chRx_pc (hi : i ≠ .rxReceive) (h : exec i s = .next t) :
    t.chRx.pc = s.chRx.pc ∨ t.chRx.pc ≠ .rv4 ∧ t.chRx.pc.pastFirst = false := by
  by_cases hc : i.channel = .rx
  · exact .inr (exec_chRx_pc_own hi hc h)
  · exact .inl (congrArg Chan.pc ((exec_steps h).others .rx (Ne.symm hc)))

theorem exec_tableOrdered_of_tableView (hs : s.TableOrdered) (hi : i ≠ .rxReceive) (h : exec i s = .next t)
    (hv : t.tableView = s.tableView) : t.TableOrdered := by
  rcases exec_chRx_pc hi h with hpc | ⟨h4, hp⟩
  · exact hs.same hv hpc
  · exact hs.congr hv (fun hx => absurd hx h4) fun hx => by simp [hp] at hx

theorem tableView_openEngine {e : Engine} {st : Status} (h : s.openEngine e = (st, t)) :
    t.tableView = s.tableView := by
  rcases openEngine_cases h with rfl | rfl
  · rfl
  · cases e <;> rfl

/-- RX.INIT clears the counters only where no worker lives (R801). -/
theorem execRxInit_tableView (s : State) :
    leadsTo (fun t => t.tableView = s.tableView ∨
        s.worker.pc = .dead ∧ t.worker = s.worker ∧ t.rx.count = 0#32 ∧ t.rx.table = s.rx.table ∧ t.cfg = s.cfg)
      (execRxInit s) := by
  unfold execRxInit
  split
  · split
    · exact .inl rfl
    next hdead =>
      split
      next hopen =>
        have hv := tableView_openEngine hopen
        simp only [State.tableView, Prod.mk.injEq] at hv
        obtain ⟨-, htable, -, hworker, hcfg, -⟩ := hv
        exact .inr ⟨by simpa [State.workerAlive] using hdead, hworker, rfl, htable, hcfg⟩
      next hopen => exact .inl ((State.tableView_setChan ..).trans (tableView_openEngine hopen))
  · trivial

theorem tableView_rdStart (s : State) : (rdStart s).tableView = s.tableView := by
  unfold rdStart
  dsimp only
  split <;> rfl

@[simp] theorem tableView_rdNext (x : Locals) (s : State) : (rdNext x s).tableView = s.tableView :=
  State.tableView_setChan ..

@[simp] theorem tableView_setCrcStatus (j : Nat) (v : Verdict) (s : State) :
    (s.setCrcStatus j v).tableView = s.tableView := rfl

@[simp] theorem tableView_bufReadNote (e : Engine) (o n : Nat) (s : State) :
    (s.bufReadNote e o n).tableView = s.tableView := by
  cases e <;> rfl

@[simp] theorem tableView_writeMem (z : ByteSpace) (a : Nat) (bs : List Byte) (s : State) :
    (s.writeMem z a bs).tableView = s.tableView := by
  simp [State.writeMem, State.tableView]

@[simp] theorem tableView_logEvent (v : Event) (s : State) : (s.logEvent v).tableView = s.tableView := rfl

theorem tableView_rdCopy (x : Locals) (o : Nat) (h : Hdr) (s : State) : (rdCopy x o h s).tableView = s.tableView := by
  unfold rdCopy
  dsimp only
  split <;> simp

theorem tableView_rdEntry (s : State) : (rdEntry s).tableView = s.tableView := by
  unfold rdEntry
  dsimp only
  split
  · simp
  · split
    · simp
    · simp [tableView_rdCopy]

/-- RX.READ clears the counter at its last step alone (R820). -/
theorem execRxRead_tableView (s : State) :
    leadsTo (fun t => t.tableView = s.tableView ∨ s.chRx.pc = .rd5 ∧ t = rdEnd s) (execRxRead s) := by
  unfold execRxRead
  split
  · split <;> exact .inl rfl
  · split <;> exact .inl rfl
  · exact .inl (tableView_rdStart s)
  · exact .inl (tableView_rdEntry s)
  next hpc => exact .inr ⟨hpc, rfl⟩
  · trivial

/-- Of the commands only RX.INIT, RX.RECEIVE and RX.READ write the table's counters (R905). -/
theorem exec_tableView (h : exec i s = .next t) (h1 : i ≠ .rxInit) (h2 : i ≠ .rxReceive) (h3 : i ≠ .rxRead) :
    t.tableView = s.tableView := by
  rcases exec_writesOnly h with ⟨-, hp⟩ | ⟨-, hp⟩ | ⟨-, hp⟩
  · rw [writesOnlyTx_frame hp]
    rfl
  · cases i with
    | rxInit => exact absurd rfl h1
    | rxReceive => exact absurd rfl h2
    | rxRead => exact absurd rfl h3
    | dmaOpen _ | dmaWrite _ _ _ | codecEncode _ | codecDecode _ | codecCrc _ => rw [hp]; rfl
    | dmaRead _ | dmaClose _ | rxReset | rxStart | rxStop | rxClose => rw [hp.1]; rfl
    | _ => exact False.elim hp
  · rw [writesOnlyBus_frame hp]
    rfl

theorem exec_tableOrdered (ho : s.WorkerOwns) (hs : s.TableOrdered) (h : exec i s = .next t) : t.TableOrdered := by
  by_cases h2 : i = .rxReceive
  · subst h2
    exact leadsTo_of_next (execRxReceive_tableOrdered ho hs) h
  by_cases h1 : i = .rxInit
  · subst h1
    rcases leadsTo_of_next (execRxInit_tableView s) h with hv | ⟨hdead, hw, hcount, htable, hcfg⟩
    · exact exec_tableOrdered_of_tableView hs h2 h hv
    · have hidle := exec_chRx_pc_own h2 rfl h
      exact .cleared (by rw [htable, hcfg]; exact hs.tableBound) hcount (by rw [hw, hdead])
        (fun hp => absurd hp hidle.1) hidle.2
  by_cases h3 : i = .rxRead
  · subst h3
    rcases leadsTo_of_next (execRxRead_tableView s) h with hv | ⟨hpc, rfl⟩
    · exact exec_tableOrdered_of_tableView hs h2 h hv
    · exact .cleared hs.tableBound rfl (ho.deadWhereNeeded (by rw [hpc]; rfl)) nofun rfl
  exact exec_tableOrdered_of_tableView hs h2 h (exec_tableView h h1 h2 h3)

end Commands

/-! ## Every move -/

theorem channelStep_tableOrdered {c : Channel} {s t : State} (ho : s.WorkerOwns) (hs : s.TableOrdered)
    (h : channelStep c s = .next t) : t.TableOrdered := by
  rcases channelStep_eq_next h with ⟨-, rfl⟩ | ⟨-, i, -, -, hi⟩
  · exact hs
  · exact exec_tableOrdered ho hs hi

theorem tableView_scatter (s : State) (ranges : List (Nat × Nat)) (bs : List Byte) :
    (s.scatter ranges bs).tableView = s.tableView := by
  rw [State.scatter_frame]
  rfl

theorem tableView_completeRx (r : DmaRec) (rest : List DmaRec) (f : List Byte) (tail : List (U32 × List Byte))
    (s : State) : (completeRx r rest f tail s).tableView = s.tableView :=
  tableView_scatter (s.drawBytes (r.len - f.length)).2 r.ranges _

theorem tableView_setDmac (s : State) (e : Engine) (d : Dmac) : (s.setDmac e d).tableView = s.tableView := by
  cases e <;> rfl

theorem tableView_dmacStep (e : Engine) (s : State) : (dmacStep e s).tableView = s.tableView := by
  unfold dmacStep
  dsimp only
  split
  · rfl
  · split
    · rfl
    · split
      · exact tableView_setDmac ..
      · cases e
        case tx =>
          dsimp only
          split
          · rfl
          · split <;> rfl
        case rx =>
          dsimp only
          split
          · rfl
          · split
            · exact tableView_completeRx ..
            · rfl

theorem dmacStep_tableOrdered {s : State} (e : Engine) (h : s.TableOrdered) : (dmacStep e s).TableOrdered :=
  h.same (tableView_dmacStep e s) (congrArg Chan.pc ((keepsChannels_dmacStep e s).chan .rx))

theorem firstLabel_not_receiving (i : Instr) : firstLabel i ≠ .rv4 ∧ (firstLabel i).pastFirst = false := by
  cases i <;> exact ⟨nofun, rfl⟩

/-- An issue puts its channel at a first label (R18). -/
theorem begin_tableOrdered {s : State} (i : Instr) (w : U32) (h : s.TableOrdered) : (s.begin i w).TableOrdered := by
  have hv : (s.begin i w).tableView = s.tableView := State.tableView_setChan ..
  by_cases hc : Channel.rx = i.channel
  · have hpc : (s.begin i w).chRx.pc = firstLabel i := by
      have hb := s.pc_begin i w
      rwa [← hc] at hb
    obtain ⟨h4, hp⟩ := firstLabel_not_receiving i
    exact h.congr hv (fun hx => absurd (hpc.symm.trans hx) h4) fun hx => by simp [hpc, hp] at hx
  · exact h.same hv (congrArg Chan.pc (s.chan_begin_other i w hc))

theorem hostStep_tableOrdered {a : HostAct} {s t : State} (hs : s.TableOrdered) (h : hostStep a s = .next t) :
    t.TableOrdered := by
  cases a with
  | writeArg c i v =>
    simp only [hostStep] at h
    split at h <;> cases h
    · exact hs
    · exact hs.same (State.tableView_setChan ..) (by cases c <;> rfl)
  | issue w =>
    cases h
    rcases s.issue_cases w with ⟨i, -, -, hi⟩ | ⟨st, hi⟩ <;> rw [hi]
    · exact begin_tableOrdered i w hs
    · exact hs.same rfl rfl
  | readReg r =>
    simp only [hostStep] at h
    split at h <;> cases h
    · exact hs
    · exact hs.same rfl rfl
  | readMem a n =>
    simp only [hostStep] at h
    split at h <;> cases h
    exact hs.same rfl rfl
  | writeMem a bs =>
    simp only [hostStep] at h
    split at h <;> cases h
    exact hs.same rfl rfl

theorem moveBody_tableOrdered {m : Move} {s t : State} (hw : s.cfg.wf = true) (ho : s.WorkerOwns)
    (hs : s.TableOrdered) (h : moveBody m s = .next t) : t.TableOrdered := by
  cases m with
  | host a => exact hostStep_tableOrdered hs h
  | channel c p =>
    exact channelStep_tableOrdered (s := { s with pick := p }) (ho.congr rfl rfl rfl rfl) (hs.same rfl rfl) h
  | worker p =>
    cases h
    exact workerStep_tableOrdered (s := { s with pick := p }) hw (ho.congr rfl rfl rfl rfl) (hs.same rfl rfl)
  | dmac e =>
    cases h
    exact dmacStep_tableOrdered e hs
  | modemRx len f =>
    cases h
    unfold modemRxStep
    split
    · exact hs.same rfl rfl
    · exact hs
  | modemTx =>
    cases h
    exact hs
  | clock =>
    cases h
    exact hs.same rfl rfl
  | reset =>
    cases h
    exact .cleared nofun rfl rfl nofun rfl

/-- Settles O55: taking the next move leaves the table alone, and every move keeps it in order. -/
theorem tableStaysOrdered : Obligations.TableStaysOrdered := by
  unfold Obligations.TableStaysOrdered
  intro s t ho hs h
  obtain ⟨hw, ha⟩ := step_eq_next h
  obtain ⟨u, hu, rfl⟩ := act_eq_next ha
  refine State.TableOrdered.same (s := u) (moveBody_tableOrdered ?_ ?_ ?_ hu) rfl rfl
  · rw [State.nextMove_frame]
    exact hw
  · rw [State.nextMove_frame]
    exact ho.congr rfl rfl rfl rfl
  · rw [State.nextMove_frame]
    exact hs.same rfl rfl

end Sys2Proof.Machine
end

section
/-! SUPPORT. Where a step stores bytes: the one range that a command computes from the state it starts in, the rows of a
received transfer, the host's own writes, and nothing else (R206, R543, R603, R713, R717, R821). -/

namespace Sys2Proof.Machine

/-! ## The byte spaces of a state -/

/-- The three byte spaces (R201). -/
def State.byteView (s : State) : Memory × Memory × Memory := (s.bufTx, s.bufRx, s.hostMem)

theorem State.space_of_byteView {s t : State} (h : t.byteView = s.byteView) (z : ByteSpace) : t.space z = s.space z := by
  simp only [State.byteView, Prod.mk.injEq] at h
  obtain ⟨htx, hrx, hhost⟩ := h
  match z with
  | .buf .tx => exact htx
  | .buf .rx => exact hrx
  | .hostMem => exact hhost

@[simp] theorem State.byteView_setChan (s : State) (c : Channel) (x : Chan) :
    (s.setChan c x).byteView = s.byteView := by
  cases c <;> rfl

@[simp] theorem byteView_bufReadNote (e : Engine) (o n : Nat) (s : State) :
    (s.bufReadNote e o n).byteView = s.byteView := by
  cases e <;> rfl

@[simp] theorem byteView_setCrcStatus (j : Nat) (v : Verdict) (s : State) :
    (s.setCrcStatus j v).byteView = s.byteView := rfl

@[simp] theorem byteView_logEvent (v : Event) (s : State) : (s.logEvent v).byteView = s.byteView := rfl

@[simp] theorem byteView_rdNext (x : Locals) (s : State) : (rdNext x s).byteView = s.byteView :=
  State.byteView_setChan ..

/-- A write to a space depends on the byte spaces alone, as far as they go. -/
theorem State.byteView_writeMem_congr {s t : State} (h : t.byteView = s.byteView) (z : ByteSpace) (a : Nat)
    (bs : List Byte) : (t.writeMem z a bs).byteView = (s.writeMem z a bs).byteView := by
  simp only [State.byteView, Prod.mk.injEq] at h
  obtain ⟨htx, hrx, hhost⟩ := h
  match z with
  | .buf .tx => simp [State.byteView, State.writeMem, State.space, State.setSpace, htx, hrx, hhost]
  | .buf .rx => simp [State.byteView, State.writeMem, State.space, State.setSpace, htx, hrx, hhost]
  | .hostMem => simp [State.byteView, State.writeMem, State.space, State.setSpace, htx, hrx, hhost]

theorem State.byteView_bufWrite (s : State) (e : Engine) (o : Nat) (bs : List Byte) :
    (s.bufWrite e o bs).byteView = (s.writeMem (.buf e) o bs).byteView :=
  State.byteView_writeMem_congr (s := s) (t := s.noteRace (s.raced e o bs.length)) rfl (.buf e) o bs

/-! ## The length of a frame (R602, R603) -/

theorem le_pad8 (n : Nat) : n ≤ pad8 n := by
  unfold pad8 rd8
  omega

theorem pad8_mono {m n : Nat} (h : m ≤ n) : pad8 m ≤ pad8 n := by
  unfold pad8 rd8
  omega

@[simp] theorem length_hdrBytes (h : Hdr) : (hdrBytes h).length = hdrSize := rfl

@[simp] theorem length_frameBytes (c : Config) (p : List Byte) (mtu packId frameId numFrames packSz : U32) :
    (frameBytes c p mtu packId frameId numFrames packSz).length = footprint c p.length := by
  have hp := le_pad8 p.length
  simp only [frameBytes, footprint, List.length_append, length_hdrBytes, List.length_replicate]
  omega

/-! ## The commands -/

/-- `t` has the byte spaces of `s`, after a store to exactly the range `r` if there is one. -/
inductive StoresAt (r : Option (ByteSpace × Nat × Nat)) (s t : State) : Prop
  | none (hr : r = .none) (h : t.byteView = s.byteView)
  | some {z : ByteSpace} {o : Nat} (bs : List Byte) (hr : r = .some (z, o, bs.length))
      (h : t.byteView = (s.writeMem z o bs).byteView)

/-- The commands that store bytes. -/
def storesBytes : Instr → Bool
  | .codecEncode _ | .txWrite | .rxRead => true
  | _ => false

theorem storeRange_eq_none {i : Instr} (hi : storesBytes i = false) (s : State) : storeRange i s = none := by
  cases i <;> first | rfl | cases hi

theorem exec_byteView {i : Instr} {s t : State} (hi : storesBytes i = false) (h : exec i s = .next t) :
    t.byteView = s.byteView := by
  rcases exec_writesOnly h with ⟨-, hp⟩ | ⟨-, hp⟩ | ⟨-, hp⟩
  · cases i with
    | codecEncode _ | txWrite => cases hi
    | dmaOpen _ | dmaRead _ | codecDecode _ | codecCrc _ | txInit | txSetMtu => rw [hp]; rfl
    | dmaWrite _ _ _ | dmaClose _ | txReset | txClose => rw [hp.1]; rfl
    | _ => exact False.elim hp
  · cases i with
    | codecEncode _ | rxRead => cases hi
    | dmaOpen _ | dmaWrite _ _ _ | codecDecode _ | codecCrc _ | rxInit | rxReceive => rw [hp]; rfl
    | dmaRead _ | dmaClose _ | rxReset | rxStart | rxStop | rxClose => rw [hp.1]; rfl
    | _ => exact False.elim hp
  · rw [writesOnlyBus_frame hp]
    rfl

theorem storesAt_encode {r : Option (ByteSpace × Nat × Nat)} {s : State} {e : Engine} {o : Nat} {p : List Byte}
    (hr : r = some (.buf e, o, footprint s.cfg p.length)) (mtu packId frameId numFrames packSz : U32) :
    StoresAt r s (s.encode e o p mtu packId frameId numFrames packSz) :=
  .some (frameBytes s.cfg p mtu packId frameId numFrames packSz) (by rw [hr, length_frameBytes])
    (s.byteView_bufWrite ..)

theorem StoresAt.setChan {r : Option (ByteSpace × Nat × Nat)} {s t : State} (h : StoresAt r s t) (c : Channel)
    (x : Chan) : StoresAt r s (t.setChan c x) := by
  cases h with
  | none hr h => exact .none hr ((State.byteView_setChan ..).trans h)
  | some bs hr h => exact .some bs hr ((State.byteView_setChan ..).trans h)

theorem execCodecEncode_stores (e : Engine) (s : State) :
    leadsTo (StoresAt (storeRange (.codecEncode e) s) s) (execCodecEncode e s) := by
  unfold execCodecEncode
  split
  next hpc =>
    have hr : storeRange (.codecEncode e) s = none := by simp [storeRange, hpc]
    have hs : StoresAt (storeRange (.codecEncode e) s) s s := .none hr rfl
    unfold encodeFetch
    dsimp only
    split
    · exact hs.setChan _ _
    · split
      · exact hs.setChan _ _
      · split
        · exact hs.setChan _ _
        · exact hs.setChan _ _
  next hpc => exact (storesAt_encode (by simp [storeRange, hpc]) _ _ _ _ _).setChan _ _
  · trivial

theorem txBuild_stores {r : Option (ByteSpace × Nat × Nat)} {s : State}
    (hr : r = some (.buf .tx, s.chTx.loc.off, footprint s.cfg (txFrameSize s.chTx.loc))) : StoresAt r s (txBuild s) :=
  storesAt_encode (by rw [hr, State.length_readMem]) _ _ _ _ _

theorem txStage_stores {s : State} (hpc : s.chTx.pc = .tsEnc) : StoresAt (storeRange .txWrite s) s (txStage s) := by
  have hb := txBuild_stores (s := s) (r := storeRange .txWrite s) (by simp [storeRange, hpc])
  unfold txStage
  dsimp only
  split
  · exact hb.setChan _ _
  · exact hb.setChan _ _

theorem byteView_txFlush {mk : DmaLabel → Label} {k : State → State} (l : DmaLabel) {s : State}
    (hk : (k s).byteView = s.byteView) : (txFlush mk k l s).byteView = s.byteView := by
  unfold txFlush
  split
  next hs =>
    have hd := dmaStep_keeps .tx l s.chTx.loc.dma s
    rw [hs] at hd
    rw [State.gotoWith, State.byteView_setChan, hd.1.eq_frame]
    rfl
  next hs => exact (eq_of_dmaStep_ret hs).symm ▸ hk
  next hs => exact (eq_of_dmaStep_ret hs).symm ▸ State.byteView_setChan ..
  · rfl

theorem byteView_txCheck (s : State) : (txCheck s).byteView = s.byteView := by
  unfold txCheck
  dsimp only
  split
  · rfl
  · split
    · rfl
    · split <;> rfl

theorem byteView_txPlan (s : State) : (txPlan s).byteView = s.byteView := by
  unfold txPlan
  dsimp only
  split <;> rfl

theorem byteView_txFlushed (s : State) : (txFlushed s).byteView = s.byteView := by
  unfold txFlushed
  dsimp only
  split
  · rfl
  · split <;> rfl

theorem byteView_txPause (s : State) : (txPause s).byteView = s.byteView := by
  unfold txPause
  split <;> rfl

theorem execTxWrite_stores (s : State) : leadsTo (StoresAt (storeRange .txWrite s) s) (execTxWrite s) := by
  unfold execTxWrite
  split
  next hpc => exact .none (by simp [storeRange, hpc]) (byteView_txCheck s)
  next hpc => exact .none (by simp [storeRange, hpc]) (byteView_txPlan s)
  next hpc => exact txStage_stores hpc
  next hpc => exact .none (by simp [storeRange, hpc]) (byteView_txFlush _ rfl)
  next hpc => exact (txBuild_stores (by simp [storeRange, hpc])).setChan .tx _
  next hpc => exact .none (by simp [storeRange, hpc]) (byteView_txFlush _ (byteView_txFlushed s))
  next hpc => exact .none (by simp [storeRange, hpc]) rfl
  next hpc => exact .none (by simp [storeRange, hpc]) (byteView_txPause s)
  next hpc => exact (storesAt_encode (by simp [storeRange, hpc]) _ _ _ _ _).setChan .tx _
  next hpc => exact .none (by simp [storeRange, hpc]) (byteView_txFlush _ rfl)
  next hpc => exact .none (by simp [storeRange, hpc]) rfl
  · trivial

/-- The copy of an entry stores its payload at the cursor, whatever its verdict (R821). -/
theorem rdCopy_stores {r : Option (ByteSpace × Nat × Nat)} {s u : State} (x : Locals) (o : Nat) (h : Hdr)
    (hu : u.byteView = s.byteView) (ha : u.chRx.opd = s.chRx.opd)
    (hr : r = some (.hostMem, s.chRx.opd.a0.toNat + x.cur, h.frameSz.toNat)) : StoresAt r s (rdCopy x o h u) := by
  refine .some (u.readMem (.buf .rx) (o + hdrSize) h.frameSz.toNat)
    (by rw [State.length_readMem]; exact hr) ?_
  have hw : ((u.bufReadNote .rx (o + hdrSize) h.frameSz.toNat).writeMem .hostMem (u.chRx.opd.a0.toNat + x.cur)
      (u.readMem (.buf .rx) (o + hdrSize) h.frameSz.toNat)).byteView =
      (s.writeMem .hostMem (s.chRx.opd.a0.toNat + x.cur)
        (u.readMem (.buf .rx) (o + hdrSize) h.frameSz.toNat)).byteView := by
    rw [ha]
    exact State.byteView_writeMem_congr ((byteView_bufReadNote ..).trans hu) _ _ _
  unfold rdCopy
  dsimp only
  split
  · simpa using hw
  · simpa using hw

theorem rdEntry_stores {s : State} (hpc : s.chRx.pc = .rd4) : StoresAt (storeRange .rxRead s) s (rdEntry s) := by
  unfold rdEntry
  dsimp only
  split
  next h1 => exact .none (by simp [storeRange, hpc, h1]) (by simp)
  next h1 =>
    split
    next h2 => exact .none (by simp [storeRange, hpc, h1, h2]) (by simp)
    next h2 => exact rdCopy_stores _ _ _ (byteView_bufReadNote ..) rfl (by simp [storeRange, hpc, h1, h2])

theorem byteView_rdStart (s : State) : (rdStart s).byteView = s.byteView := by
  unfold rdStart
  dsimp only
  split <;> rfl

theorem execRxRead_stores (s : State) : leadsTo (StoresAt (storeRange .rxRead s) s) (execRxRead s) := by
  unfold execRxRead
  split
  next hpc => split <;> exact .none (by simp [storeRange, hpc]) rfl
  next hpc => split <;> exact .none (by simp [storeRange, hpc]) rfl
  next hpc => exact .none (by simp [storeRange, hpc]) (byteView_rdStart s)
  next hpc => exact rdEntry_stores hpc
  next hpc => exact .none (by simp [storeRange, hpc]) rfl
  · trivial

/-- One step of any command stores exactly the range computed from the state it starts in (R206). -/
theorem exec_stores {i : Instr} {s t : State} (h : exec i s = .next t) : StoresAt (storeRange i s) s t := by
  cases hi : storesBytes i with
  | false => exact .none (storeRange_eq_none hi s) (exec_byteView hi h)
  | true =>
    cases i with
    | codecEncode e => exact leadsTo_of_next (execCodecEncode_stores e s) h
    | txWrite => exact leadsTo_of_next (execTxWrite_stores s) h
    | rxRead => exact leadsTo_of_next (execRxRead_stores s) h
    | _ => cases hi

/-- Settles O60: a byte outside the range of the store is read as before. -/
theorem commandStoresOnlyInRange : Obligations.CommandStoresOnlyInRange := by
  unfold Obligations.CommandStoresOnlyInRange
  intro i s t h z a hout
  have hepoch : t.epoch = s.epoch := by rw [exec_common_frame h]
  cases exec_stores h with
  | none hr hv => exact State.byteAt_congr z a (State.space_of_byteView hv z) hepoch
  | @some z' o bs hr hv =>
    have hw : t.byteAt z a = (s.writeMem z' o bs).byteAt z a :=
      State.byteAt_congr z a (State.space_of_byteView hv z) (hepoch.trans (State.setSpace_epoch ..).symm)
    rw [hw]
    by_cases hz : z = z'
    · subst hz
      exact State.byteAt_writeMem_outside s z o a bs (hout o bs.length hr)
    · exact State.byteAt_writeMem_other s z' z o a bs hz

end Sys2Proof.Machine
end

section
/-! SUPPORT. The byte spaces and tables under every move: they stay canonical (R161, R201), and no byte past the end of its
space is ever written (R206, R711). -/

namespace Sys2Proof.Machine

/-! ## The agents beside the channels -/

/-- `t` has the byte spaces and the verdicts of `s`, and its table with at most one entry written. -/
structure KeepsLists (s t : State) : Prop where
  bytes : t.byteView = s.byteView
  crcStatus : t.rx.crcStatus = s.rx.crcStatus
  table : t.rx.table = s.rx.table ∨ ∃ a v, t.rx.table = Sparse.write s.rx.table a [v]

/-- An update of other fields. -/
theorem KeepsLists.of_frame {s t : State}
    (h : t = { t with
      bufTx := s.bufTx, bufRx := s.bufRx, hostMem := s.hostMem
      rx := { t.rx with table := s.rx.table, crcStatus := s.rx.crcStatus } }) : KeepsLists s t := by
  rw [h]
  exact ⟨rfl, rfl, .inl rfl⟩

theorem keepsLists_wWait (s : State) : KeepsLists s (wWait s) := by
  unfold wWait
  split
  · exact .of_frame rfl
  next hu =>
    rcases State.irqWait_eq_some hu with ⟨-, -, -, rfl⟩ | ⟨-, -, -, rfl⟩ | ⟨-, -, -, rfl⟩ <;> exact .of_frame rfl

theorem keepsLists_wTimeout (s : State) : KeepsLists s (wTimeout s) := by
  unfold wTimeout
  split
  · dsimp only
    split <;> exact .of_frame rfl
  · exact .of_frame rfl

theorem keepsLists_wWoke (s : State) : KeepsLists s (wWoke s) := by
  unfold wWoke
  split
  · exact .of_frame rfl
  · split
    · exact .of_frame rfl
    · exact keepsLists_wTimeout s
    · exact .of_frame rfl

theorem keepsLists_wRead (l : DmaLabel) (s : State) : KeepsLists s (wRead l s) := by
  unfold wRead
  split
  next hs =>
    have hd := dmaStep_keeps .rx l s.worker.dma s
    rw [hs] at hd
    rw [hd.1.eq_frame]
    exact .of_frame rfl
  next hs => exact (eq_of_dmaStep_ret hs).symm ▸ .of_frame rfl
  next hs => exact (eq_of_dmaStep_ret hs).symm ▸ .of_frame rfl
  next hs => exact (eq_of_dmaStep_ret hs).symm ▸ .of_frame rfl
  · exact .of_frame rfl

/-- The worker stores no byte; it writes the table when it publishes (R834). -/
theorem keepsLists_workerStep (s : State) : KeepsLists s (workerStep s) := by
  unfold workerStep
  split
  · exact .of_frame rfl
  · split <;> exact .of_frame rfl
  · exact .of_frame rfl
  · exact keepsLists_wWait s
  · exact keepsLists_wWoke s
  · unfold wLength
    dsimp only
    split <;> exact .of_frame rfl
  · unfold wPlace
    split <;> exact .of_frame rfl
  · exact keepsLists_wRead _ s
  · unfold wPublish
    split
    · exact .of_frame rfl
    · exact ⟨rfl, rfl, .inr ⟨_, _, rfl⟩⟩
  · exact .of_frame rfl

/-- A controller writes bytes only when it completes a transfer of engine RX that lies inside the window (R202, R543). -/
theorem dmacStep_lists (e : Engine) (s : State) :
    KeepsLists s (dmacStep e s) ∨ ∃ r rest f tail, r.inside s.cfg .rx = true ∧ dmacStep e s = completeRx r rest f tail s := by
  have hset : ∀ d, KeepsLists s (s.setDmac e d) := fun d => by cases e <;> exact .of_frame rfl
  have hdrop : ∀ rest, KeepsLists s (dropWild e rest s) := fun rest => by cases e <;> exact .of_frame rfl
  unfold dmacStep
  dsimp only
  split
  · exact .inl (.of_frame rfl)
  · split
    · exact .inl (.of_frame rfl)
    · split
      · exact .inl (hset _)
      · cases e
        case tx =>
          dsimp only
          split
          · exact .inl (.of_frame rfl)
          · split
            · exact .inl (.of_frame rfl)
            · exact .inl (hdrop _)
        case rx =>
          dsimp only
          split
          · exact .inl (.of_frame rfl)
          · split
            next hin => exact .inr ⟨_, _, _, _, hin, rfl⟩
            · exact .inl (hdrop _)

theorem modemRxStep_lists (len : U32) (f : List Byte) (s : State) : KeepsLists s (modemRxStep len f s) := by
  unfold modemRxStep
  split <;> exact .of_frame rfl

/-- The bytes of a received transfer are scattered over its rows, from a state with the same byte spaces (R543). -/
theorem completeRx_lists (r : DmaRec) (rest : List DmaRec) (f : List Byte) (tail : List (U32 × List Byte)) (s : State) :
    ∃ (u : State) (bs : List Byte), (∀ z, s.space z = u.space z) ∧
      (∀ z, (u.scatter r.ranges bs).space z = (completeRx r rest f tail s).space z) ∧
      s.rx = (completeRx r rest f tail s).rx ∧ s.cfg = u.cfg := by
  refine ⟨(s.drawBytes (r.len - f.length)).2, _, fun _ => rfl, fun _ => rfl, ?_, rfl⟩
  dsimp only [completeRx]
  rw [State.scatter_frame]
  rfl

/-- The host stores bytes inside its own memory only (R11, R17). -/
theorem hostStep_lists {a : HostAct} {s t : State} (h : hostStep a s = .next t) :
    KeepsLists s t ∨ ∃ o bs, o + bs.length ≤ s.cfg.hostMemSize ∧ t = s.writeMem .hostMem o bs := by
  cases a with
  | writeArg c i v =>
    simp only [hostStep] at h
    split at h <;> cases h
    · exact .inl (.of_frame rfl)
    · exact .inl (by cases c <;> exact .of_frame rfl)
  | issue w =>
    cases h
    rcases s.issue_cases w with ⟨i, -, -, hi⟩ | ⟨st, hi⟩ <;> rw [hi]
    · refine .inl ⟨State.byteView_setChan .., ?_, .inl ?_⟩
      · exact congrArg Reassembler.crcStatus (State.setChan_rx ..)
      · exact congrArg Reassembler.table (State.setChan_rx ..)
    · exact .inl (.of_frame rfl)
  | readReg r =>
    simp only [hostStep] at h
    split at h <;> cases h <;> exact .inl (.of_frame rfl)
  | readMem o n =>
    simp only [hostStep] at h
    split at h <;> cases h
    exact .inl (.of_frame rfl)
  | writeMem o bs =>
    simp only [hostStep] at h
    split at h <;> cases h
    exact .inr ⟨o, bs, ‹_›, rfl⟩

/-! ## The canonical form -/

/-- The byte spaces under a command's step. -/
theorem exec_space_wf {i : Instr} {s t : State} (h : exec i s = .next t) (hs : ∀ z, Memory.wf (s.space z)) :
    ∀ z, Memory.wf (t.space z) := by
  intro z
  cases exec_stores h with
  | none _ hv => exact (State.space_of_byteView hv z).symm ▸ hs z
  | @some z' o bs _ hv => exact (State.space_of_byteView hv z).symm ▸ State.space_writeMem_wf s z' o bs hs z

/-- No command writes the offset table, and only RX.READ a verdict (R821, R905). -/
theorem exec_tables {i : Instr} {s t : State} (h : exec i s = .next t) :
    t.rx.table = s.rx.table ∧ (i ≠ .rxRead → t.rx.crcStatus = s.rx.crcStatus) := by
  rcases exec_writesOnly h with ⟨-, hp⟩ | ⟨-, hp⟩ | ⟨-, hp⟩
  · rw [writesOnlyTx_frame hp]
    exact ⟨rfl, fun _ => rfl⟩
  · cases i with
    | rxRead => exact ⟨by rw [hp], fun hne => absurd rfl hne⟩
    | rxInit | dmaOpen _ | dmaWrite _ _ _ | codecEncode _ | codecDecode _ | codecCrc _ | rxReceive =>
      rw [hp]
      exact ⟨rfl, fun _ => rfl⟩
    | dmaRead _ | dmaClose _ | rxReset | rxStart | rxStop | rxClose =>
      rw [hp.1]
      exact ⟨rfl, fun _ => rfl⟩
    | _ => exact False.elim hp
  · rw [writesOnlyBus_frame hp]
    exact ⟨rfl, fun _ => rfl⟩

/-- RX.READ writes one verdict in a step, or none. -/
def WritesVerdict (s t : State) : Prop :=
  t.rx.crcStatus = s.rx.crcStatus ∨ ∃ j v, t.rx.crcStatus = Sparse.write s.rx.crcStatus j [v]

theorem rdEntry_writesVerdict (s : State) : WritesVerdict s (rdEntry s) := by
  unfold rdEntry
  dsimp only
  split
  · exact .inr ⟨_, _, rfl⟩
  · split
    · exact .inr ⟨_, _, rfl⟩
    · unfold rdCopy
      dsimp only
      split <;> exact .inr ⟨_, _, rfl⟩

theorem execRxRead_writesVerdict (s : State) : leadsTo (WritesVerdict s) (execRxRead s) := by
  unfold execRxRead
  split
  · split <;> exact .inl rfl
  · split <;> exact .inl rfl
  · unfold rdStart
    dsimp only
    split <;> exact .inl rfl
  · exact rdEntry_writesVerdict s
  · exact .inl rfl
  · trivial

namespace State.Canonical

variable {s t : State}

theorem space (h : s.Canonical) : ∀ z, Memory.wf (s.space z)
  | .buf .tx => h.bufTx
  | .buf .rx => h.bufRx
  | .hostMem => h.hostMem

theorem of_space (hz : ∀ z, Memory.wf (s.space z)) (ht : Sparse.wf s.rx.table) (hc : Sparse.wf s.rx.crcStatus) :
    s.Canonical :=
  ⟨hz (.buf .tx), hz (.buf .rx), hz .hostMem, ht, hc⟩

theorem keepsLists (h : s.Canonical) (hk : KeepsLists s t) : t.Canonical := by
  refine of_space (fun z => (State.space_of_byteView hk.bytes z).symm ▸ h.space z) ?_ (hk.crcStatus.symm ▸ h.crcStatus)
  rcases hk.table with ht | ⟨a, v, ht⟩ <;> rw [ht]
  · exact h.table
  · exact Sparse.write_wf h.table a [v]

theorem of_exec {i : Instr} (h : s.Canonical) (hx : exec i s = .next t) : t.Canonical := by
  obtain ⟨htable, hcrc⟩ := exec_tables hx
  refine of_space (exec_space_wf hx h.space) (htable.symm ▸ h.table) ?_
  by_cases hi : i = .rxRead
  · subst hi
    rcases leadsTo_of_next (execRxRead_writesVerdict s) hx with hv | ⟨j, v, hv⟩ <;> rw [hv]
    · exact h.crcStatus
    · exact Sparse.write_wf h.crcStatus j [v]
  · exact (hcrc hi).symm ▸ h.crcStatus

theorem of_writeMem (h : s.Canonical) (z : ByteSpace) (a : Nat) (bs : List Byte) : (s.writeMem z a bs).Canonical := by
  have hrx : (s.writeMem z a bs).rx = s.rx := State.setSpace_rx ..
  exact of_space (State.space_writeMem_wf s z a bs h.space) (hrx.symm ▸ h.table) (hrx.symm ▸ h.crcStatus)

theorem of_completeRx (h : s.Canonical) (r : DmaRec) (rest : List DmaRec) (f : List Byte) (tail : List (U32 × List Byte)) :
    (completeRx r rest f tail s).Canonical := by
  obtain ⟨u, bs, hu, hv, hrx, -⟩ := completeRx_lists r rest f tail s
  exact of_space (fun z => hv z ▸ State.scatter_wf u bs r.ranges (fun z => hu z ▸ h.space z) z) (hrx ▸ h.table)
    (hrx ▸ h.crcStatus)

theorem of_moveBody {m : Move} (h : s.Canonical) (hm : moveBody m s = .next t) : t.Canonical := by
  cases m with
  | host a =>
    rcases hostStep_lists hm with hk | ⟨o, bs, -, rfl⟩
    · exact h.keepsLists hk
    · exact h.of_writeMem _ _ _
  | channel c p =>
    have hp : ({ s with pick := p } : State).Canonical := h.keepsLists (.of_frame rfl)
    rcases channelStep_eq_next hm with ⟨-, rfl⟩ | ⟨-, i, -, -, hi⟩
    · exact hp
    · exact hp.of_exec hi
  | worker p =>
    cases hm
    exact (h.keepsLists (t := { s with pick := p }) (.of_frame rfl)).keepsLists (keepsLists_workerStep _)
  | dmac e =>
    cases hm
    rcases dmacStep_lists e s with hk | ⟨r, rest, f, tail, -, hk⟩
    · exact h.keepsLists hk
    · exact hk ▸ h.of_completeRx r rest f tail
  | modemRx len f =>
    cases hm
    exact h.keepsLists (modemRxStep_lists len f s)
  | modemTx =>
    cases hm
    exact h
  | clock =>
    cases hm
    exact h.keepsLists (.of_frame rfl)
  | reset =>
    cases hm
    exact ⟨.nil, .nil, .nil, .nil, .nil⟩

end State.Canonical

/-- A step is its move's body between two updates that touch no byte space, no table and no local of a command. -/
theorem step_eq_moveBody {s t : State} (h : step s = .next t) :
    ∃ m u, s.cfg.wf = true ∧ moveBody m s.nextMove.2 = .next u ∧ t = u.latch := by
  obtain ⟨hw, ha⟩ := step_eq_next h
  obtain ⟨u, hu, ht⟩ := act_eq_next ha
  exact ⟨_, u, hw, hu, ht⟩

/-- Settles O56: every move that writes a list writes it with `Sparse.write`. -/
theorem memoryStaysCanonical : Obligations.MemoryStaysCanonical := by
  unfold Obligations.MemoryStaysCanonical
  intro s t hs h
  obtain ⟨m, u, -, hu, rfl⟩ := step_eq_moveBody h
  refine State.Canonical.keepsLists (s := u) ?_ (.of_frame rfl)
  refine State.Canonical.of_moveBody (hs.keepsLists ?_) hu
  rw [State.nextMove_frame]
  exact .of_frame rfl

end Sys2Proof.Machine
end

section
/-! SUPPORT. No byte past the end of its space is ever written: the frames of a packet that fits, the ranges that the commands
carry between their steps, and every move (R206, R543, R606, R711, R713, R820). -/

namespace Sys2Proof.Machine

/-! ## Frame arithmetic (R602, R710 to R713) -/

theorem footprint_mono (c : Config) {m n : Nat} (h : m ≤ n) : footprint c m ≤ footprint c n :=
  Nat.add_le_add_right (Nat.add_le_add_left (pad8_mono h) _) _

theorem le_mul_ceilDiv (n : Nat) {m : Nat} (hm : 0 < m) : n ≤ m * ceilDiv n m := by
  have hd := Nat.div_add_mod (n + m - 1) m
  have hlt := Nat.mod_lt (n + m - 1) hm
  unfold ceilDiv
  omega

theorem ceilDiv_pos {n m : Nat} (hn : 0 < n) (hm : 0 < m) : 0 < ceilDiv n m :=
  Nat.div_pos (by omega) hm

/-- No frame of a packet is longer than the MTU (R713). -/
theorem frameSize_le {n m : Nat} (hm : 0 < m) (i : Nat) : frameSize n m (ceilDiv n m) i ≤ m := by
  unfold frameSize
  split
  · exact Nat.le_refl m
  · have h := le_mul_ceilDiv n hm
    rcases Nat.eq_zero_or_pos (ceilDiv n m) with h0 | hpos
    · rw [h0] at h
      omega
    · have hs : m * ceilDiv n m = m * (ceilDiv n m - 1) + m := by
        rw [← Nat.mul_succ]
        congr 1
        omega
      omega

theorem rd8_pos {n : Nat} (h : 8 ≤ n) : 0 < rd8 n := by
  unfold rd8
  omega

theorem Config.wf_minMtu {c : Config} (h : c.wf = true) : 8 ≤ c.minMtu := by
  have h' := h
  simp only [Config.wf] at h'
  simp_all [Config.mtuOk]

theorem Config.wf_defaultMtu {c : Config} (h : c.wf = true) : c.minMtu ≤ c.defaultMtu := by
  have h' := h
  simp only [Config.wf] at h'
  simp_all [Config.defaultMtuOk]

/-- The MTU in force is never 0 (R710). -/
theorem normMtu_pos {c : Config} (h : c.wf = true) (mtu : U32) : 0 < normMtu c mtu := by
  have h8 := Config.wf_minMtu h
  have hd := Config.wf_defaultMtu h
  unfold normMtu
  split
  next hc => exact rd8_pos (h8.trans hc.2.1)
  · omega

namespace State.packetInRange

variable {s : State} {x : Locals}

/-- The frame being built ends inside the buffer. -/
theorem frame_fits (h : s.packetInRange x) : x.off + footprint s.cfg (txFrameSize x) ≤ s.cfg.bufSizeTx := by
  obtain ⟨hm, -, hnf, hi, hoff, hfit⟩ := h
  have hsize : footprint s.cfg (txFrameSize x) ≤ footprint s.cfg x.m := by
    unfold txFrameSize
    rw [hnf]
    exact footprint_mono _ (frameSize_le hm _)
  have hmul : (x.i + 1) * footprint s.cfg x.m ≤ x.nf * footprint s.cfg x.m := Nat.mul_le_mul_right _ hi
  rw [Nat.add_mul, Nat.one_mul] at hmul
  omega

/-- Every frame but the last is as long as the MTU, so the next one begins at the next multiple (R713). -/
theorem next (h : s.packetInRange x) (hi : x.i + 1 < x.nf) (y : Locals) (hyi : y.i = x.i + 1)
    (hyo : y.off = x.off + footprint s.cfg (txFrameSize x)) (hy : (y.m, y.n, y.nf) = (x.m, x.n, x.nf)) :
    s.packetInRange y := by
  simp only [Prod.mk.injEq] at hy
  obtain ⟨hym, hyn, hynf⟩ := hy
  obtain ⟨hm, hn, hnf, -, hoff, hfit⟩ := h
  have hsize : txFrameSize x = x.m := if_pos hi
  refine ⟨by rwa [hym], by rwa [hyn], by rw [hynf, hym, hyn, hnf], by rw [hyi, hynf]; exact hi, ?_, by rwa [hynf, hym]⟩
  rw [hyo, hsize, hoff, hyi, hym, Nat.add_mul, Nat.one_mul]

end State.packetInRange

/-! ## What the channels carry -/

/-- The labels at which `LocalsInRange` asks something of the locals. -/
def Label.carriesRange : Label → Bool
  | .enc2 | .tw2 | .tsEnc | .tbEnc | .tbThr | .tbPause | .tbFlush _ | .rd4 => true
  | _ => false

/-- The part of `LocalsInRange` that concerns `CH_TX`. -/
structure State.TxInRange (s : State) : Prop where
  encode : s.chTx.pc = .enc2 → s.chTx.loc.payload.length = s.chTx.opd.a2.toNat ∧
    s.chTx.opd.a0.toNat + footprint s.cfg s.chTx.opd.a2.toNat ≤ s.cfg.bufSizeTx
  plan : s.chTx.pc = .tw2 → 0 < s.chTx.loc.n
  build : s.chTx.pc = .tsEnc ∨ s.chTx.pc = .tbEnc ∨ s.chTx.pc = .tbThr ∨ s.chTx.pc = .tbPause →
    s.packetInRange s.chTx.loc
  flush : ∀ l, s.chTx.pc = .tbFlush l → s.packetInRange s.chTx.loc

/-- The part of `LocalsInRange` that concerns `CH_RX`. -/
structure State.RxInRange (s : State) : Prop where
  encode : s.chRx.pc = .enc2 → s.chRx.loc.payload.length = s.chRx.opd.a2.toNat ∧
    s.chRx.opd.a0.toNat + footprint s.cfg s.chRx.opd.a2.toNat ≤ s.cfg.bufSizeRx
  read : s.chRx.pc = .rd4 → s.chRx.loc.cur ≤ s.chRx.opd.a1.toNat ∧
    s.chRx.opd.a0.toNat + s.chRx.opd.a1.toNat ≤ s.cfg.hostMemSize

theorem State.localsInRange_iff (s : State) : s.LocalsInRange ↔ s.TxInRange ∧ s.RxInRange :=
  ⟨fun h => ⟨⟨h.encodeTx, h.plan, h.build, h.flush⟩, ⟨h.encodeRx, h.read⟩⟩,
    fun ⟨h, h'⟩ => ⟨h.encode, h'.encode, h.plan, h.build, h.flush, h'.read⟩⟩

section Tx

variable {s t : State}

theorem State.TxInRange.of_pc (h : s.chTx.pc.carriesRange = false) : s.TxInRange where
  encode hp := by simp [hp, Label.carriesRange] at h
  plan hp := by simp [hp, Label.carriesRange] at h
  build hp := by rcases hp with hp | hp | hp | hp <;> simp [hp, Label.carriesRange] at h
  flush l hp := by simp [hp, Label.carriesRange] at h

theorem State.RxInRange.of_pc (h : s.chRx.pc.carriesRange = false) : s.RxInRange where
  encode hp := by simp [hp, Label.carriesRange] at h
  read hp := by simp [hp, Label.carriesRange] at h

theorem State.TxInRange.congr (h : s.TxInRange) (hc : t.cfg = s.cfg)
    (hp : t.chTx.procedure = s.chTx.procedure) : t.TxInRange := by
  simp only [Chan.procedure, Prod.mk.injEq] at hp
  obtain ⟨hpc, hopd, hloc⟩ := hp
  constructor <;> simp only [hpc, hopd, hloc, hc, State.packetInRange]
  · exact h.encode
  · exact h.plan
  · exact h.build
  · exact h.flush

theorem State.RxInRange.congr (h : s.RxInRange) (hc : t.cfg = s.cfg)
    (hp : t.chRx.procedure = s.chRx.procedure) : t.RxInRange := by
  simp only [Chan.procedure, Prod.mk.injEq] at hp
  obtain ⟨hpc, hopd, hloc⟩ := hp
  constructor <;> simp only [hpc, hopd, hloc, hc]
  · exact h.encode
  · exact h.read

/-- RX.READ at an entry, or past the last one. -/
theorem State.RxInRange.of_reading {u : State} {p : Label} {x : Locals} (hp : p ≠ .enc2)
    (hcur : x.cur ≤ u.chRx.opd.a1.toNat) (hdest : u.chRx.opd.a0.toNat + u.chRx.opd.a1.toNat ≤ u.cfg.hostMemSize) :
    (u.gotoWith .rx p x).RxInRange where
  encode he := absurd he hp
  read _ := ⟨hcur, hdest⟩

/-- A packet being built or flushed. -/
theorem State.TxInRange.of_packet {p : Label} (hpc : s.chTx.pc = p) (h1 : p ≠ .enc2) (h2 : p ≠ .tw2)
    (h : s.packetInRange s.chTx.loc) : s.TxInRange where
  encode hp := absurd (hpc.symm.trans hp) h1
  plan hp := absurd (hpc.symm.trans hp) h2
  build _ := h
  flush _ _ := h

end Tx

/-! ## TX.WRITE (R705, R711 to R716) -/

section TxWrite

variable {s : State}

theorem txCheck_inRange (s : State) : (txCheck s).TxInRange := by
  unfold txCheck
  dsimp only
  split
  · exact .of_pc rfl
  · split
    · exact .of_pc rfl
    next hsize =>
      split
      · exact .of_pc rfl
      · refine ⟨nofun, fun _ => ?_, (fun hp => by rcases hp with hp | hp | hp | hp <;> cases hp), nofun⟩
        have hpos : 0 < s32 s.chTx.opd.a1 := by omega
        rw [s32_eq_toNat hpos] at hpos
        exact_mod_cast hpos

/-- The packet fits, so its first frame does (R711). -/
theorem txPlan_inRange (hw : s.cfg.wf = true) (h : s.TxInRange) (hpc : s.chTx.pc = .tw2) : (txPlan s).TxInRange := by
  have hm := normMtu_pos hw s.cfgMtu
  have hn := h.plan hpc
  unfold txPlan
  dsimp only
  split
  · exact .of_pc rfl
  next hfit =>
    refine .of_packet rfl (by split <;> nofun) (by split <;> nofun) ?_
    refine ⟨hm, hn, rfl, ceilDiv_pos hn hm, (Nat.zero_mul _).symm, ?_⟩
    simpa [packetTooLarge] using hfit

theorem txStage_inRange (h : s.TxInRange) (hpc : s.chTx.pc = .tsEnc) : (txStage s).TxInRange := by
  have hp := h.build (.inl hpc)
  unfold txStage
  dsimp only
  split
  next hi => exact .of_packet rfl nofun nofun (hp.next hi _ rfl rfl rfl)
  · exact .of_pc rfl

theorem txFlushed_inRange (hp : s.packetInRange s.chTx.loc) : (txFlushed s).TxInRange := by
  unfold txFlushed
  dsimp only
  split
  next hi => exact .of_packet rfl nofun nofun (hp.next hi.2 _ rfl rfl rfl)
  · split
    next hi => exact .of_packet rfl nofun nofun (hp.next hi _ rfl rfl rfl)
    · exact .of_pc rfl

theorem txFlush_inRange {mk : DmaLabel → Label} {k : State → State} {l : DmaLabel} (h : s.TxInRange)
    (hk : (k s).TxInRange)
    (hgo : ∀ (l' : DmaLabel) (d : DmaLocals) (u : State), u.chTx = s.chTx → u.cfg = s.cfg →
      (u.gotoWith .tx (mk l') { u.chTx.loc with dma := d }).TxInRange) : (txFlush mk k l s).TxInRange := by
  unfold txFlush
  split
  next hs => exact hgo _ _ _ ((keepsChannels_dmaStep_go hs).chan .tx) (keepsChannels_dmaStep_go hs).grows.cfg
  next hs => exact (eq_of_dmaStep_ret hs).symm ▸ hk
  · exact .of_pc rfl
  · exact h

theorem txPause_inRange (h : s.TxInRange) (hpc : s.chTx.pc = .tbPause) : (txPause s).TxInRange := by
  unfold txPause
  split
  · exact .of_packet rfl nofun nofun (h.build (.inr (.inr (.inr hpc))))
  · exact h

theorem execTxWrite_inRange (hw : s.cfg.wf = true) (h : s.TxInRange) :
    leadsTo State.TxInRange (execTxWrite s) := by
  unfold execTxWrite
  split
  · exact txCheck_inRange s
  next hpc => exact txPlan_inRange hw h hpc
  next hpc => exact txStage_inRange h hpc
  · exact txFlush_inRange h (.of_pc rfl) fun _ _ _ _ _ => .of_pc rfl
  next hpc => exact .of_packet rfl nofun nofun (h.build (.inr (.inl hpc)))
  next l hpc =>
    have hp := h.flush l hpc
    refine txFlush_inRange h (txFlushed_inRange hp) fun l' d u hu hc => ?_
    refine .of_packet rfl nofun nofun ?_
    simp only [State.packetInRange, State.gotoWith_tx_chTx, State.gotoWith_cfg, hu, hc]
    exact hp
  next hpc => exact .of_packet rfl nofun nofun (h.build (.inr (.inr (.inl hpc))))
  next hpc => exact txPause_inRange h hpc
  · exact .of_pc rfl
  · exact txFlush_inRange h (.of_pc rfl) fun _ _ _ _ _ => .of_pc rfl
  · exact .of_pc rfl
  · trivial

end TxWrite

/-! ## CODEC.ENCODE and RX.READ (R606, R820) -/

/-- After a step of CODEC.ENCODE: the command has ended, or it has fetched a payload whose frame fits (R606). -/
def State.EncodeFits (s : State) (e : Engine) : Prop :=
  (s.chan e.channel).pc = .idle ∨
    (s.chan e.channel).pc = .enc2 ∧ (s.chan e.channel).loc.payload.length = (s.chan e.channel).opd.a2.toNat ∧
      (s.chan e.channel).opd.a0.toNat + footprint s.cfg (s.chan e.channel).opd.a2.toNat ≤ s.cfg.bufSize e

theorem State.encodeFits_finish (s : State) (e : Engine) (st : Status) (vs : List U32) :
    (s.finish e.channel st vs).EncodeFits e :=
  .inl (by rw [State.chan_finish])

theorem execCodecEncode_fits (e : Engine) (s : State) : leadsTo (State.EncodeFits · e) (execCodecEncode e s) := by
  unfold execCodecEncode
  split
  · unfold encodeFetch
    dsimp only
    split
    · exact s.encodeFits_finish e _ _
    · split
      · exact s.encodeFits_finish e _ _
      · split
        · exact s.encodeFits_finish e _ _
        next hfit =>
          refine .inr ?_
          rw [State.chan_gotoWith, State.gotoWith_cfg]
          exact ⟨rfl, State.length_readMem .., Nat.le_of_not_lt hfit⟩
  · exact State.encodeFits_finish _ e _ _
  · trivial

theorem State.EncodeFits.txInRange {s : State} (h : s.EncodeFits .tx) : s.TxInRange := by
  rcases h with h | ⟨hpc, hlen, hfit⟩
  · exact .of_pc (congrArg Label.carriesRange h)
  · have hne : ∀ p, p ≠ .enc2 → s.chTx.pc ≠ p := fun p hp hx => hp (hx.symm.trans hpc)
    exact ⟨fun _ => ⟨hlen, hfit⟩, fun hp => absurd hp (hne _ nofun),
      fun hp => by rcases hp with hp | hp | hp | hp <;> exact absurd hp (hne _ nofun),
      fun l hp => absurd hp (hne _ nofun)⟩

theorem State.EncodeFits.rxInRange {s : State} (h : s.EncodeFits .rx) : s.RxInRange := by
  rcases h with h | ⟨hpc, hlen, hfit⟩
  · exact .of_pc (congrArg Label.carriesRange h)
  · exact ⟨fun _ => ⟨hlen, hfit⟩, fun hp => nomatch hpc.symm.trans hp⟩

section RxRead

variable {s : State}

/-- The destination's range is checked before the first entry (R820). -/
theorem rdStart_inRange (s : State) : (rdStart s).RxInRange := by
  unfold rdStart
  dsimp only
  split
  · exact .of_pc rfl
  next hfit => exact .of_reading (by split <;> nofun) (Nat.zero_le _) (Nat.le_of_not_lt hfit)

/-- An entry's step moves the cursor inside the destination, or leaves it (R821). -/
theorem rdNext_inRange {u : State} {x : Locals} (hcur : x.cur ≤ u.chRx.opd.a1.toNat)
    (hdest : u.chRx.opd.a0.toNat + u.chRx.opd.a1.toNat ≤ u.cfg.hostMemSize) : (rdNext x u).RxInRange :=
  .of_reading (p := if x.j + 1 < x.total then .rd4 else .rd5) (by split <;> nofun) hcur hdest

theorem rdEntry_inRange (h : s.RxInRange) (hpc : s.chRx.pc = .rd4) : (rdEntry s).RxInRange := by
  obtain ⟨hcur, hdest⟩ := h.read hpc
  unfold rdEntry
  dsimp only
  split
  · exact rdNext_inRange hcur hdest
  · split
    · exact rdNext_inRange hcur hdest
    next hfit =>
      have hnew := Nat.le_of_not_lt (not_or.1 hfit).2
      unfold rdCopy
      dsimp only
      split <;> exact rdNext_inRange hnew hdest

theorem execRxRead_inRange (h : s.RxInRange) : leadsTo State.RxInRange (execRxRead s) := by
  unfold execRxRead
  split
  · split <;> exact .of_pc rfl
  next hpc =>
    split
    · exact h
    · exact .of_pc rfl
  · exact rdStart_inRange s
  next hpc => exact rdEntry_inRange h hpc
  · exact .of_pc rfl
  · trivial

end RxRead

/-! ## Every command -/

section Commands

variable {i : Instr} {s t : State}

theorem storesBytes_of_ownLabel {p : Label} (h : ownLabel i p = true) (hp : p.carriesRange = true) :
    storesBytes i = true := by
  cases p with
  | enc2 | tw2 | tsEnc | tbEnc | tbThr | tbPause | tbFlush _ | rd4 =>
    cases i with
    | codecEncode | txWrite | rxRead => rfl
    | _ => cases h
  | _ => cases hp

/-- A command that stores no bytes carries no range between its steps. -/
theorem exec_carriesRange (hi : storesBytes i = false) (h : exec i s = .next t) :
    (t.chan i.channel).pc.carriesRange = false := by
  rcases (exec_steps h).there with ⟨-, hidle⟩ | ⟨-, hl⟩
  · rw [hidle]
    rfl
  · refine Bool.eq_false_iff.2 fun hp => ?_
    rw [storesBytes_of_ownLabel hl hp] at hi
    cases hi

theorem exec_txInRange (hw : s.cfg.wf = true) (hs : s.TxInRange) (h : exec i s = .next t) : t.TxInRange := by
  by_cases hc : i.channel = .tx
  · cases hi : storesBytes i with
    | false =>
      have hp := exec_carriesRange hi h
      rw [hc] at hp
      exact .of_pc hp
    | true =>
      cases i with
      | codecEncode e =>
        obtain rfl : e = .tx := by cases e <;> first | rfl | cases hc
        exact (leadsTo_of_next (execCodecEncode_fits .tx s) h).txInRange
      | txWrite => exact leadsTo_of_next (execTxWrite_inRange hw hs) h
      | rxRead => cases hc
      | _ => cases hi
  · exact hs.congr (by rw [exec_common_frame h]) (congrArg Chan.procedure ((exec_steps h).others .tx (Ne.symm hc)))

theorem exec_rxInRange (hs : s.RxInRange) (h : exec i s = .next t) : t.RxInRange := by
  by_cases hc : i.channel = .rx
  · cases hi : storesBytes i with
    | false =>
      have hp := exec_carriesRange hi h
      rw [hc] at hp
      exact .of_pc hp
    | true =>
      cases i with
      | codecEncode e =>
        obtain rfl : e = .rx := by cases e <;> first | rfl | cases hc
        exact (leadsTo_of_next (execCodecEncode_fits .rx s) h).rxInRange
      | rxRead => exact leadsTo_of_next (execRxRead_inRange hs) h
      | txWrite => cases hc
      | _ => cases hi
  · exact hs.congr (by rw [exec_common_frame h]) (congrArg Chan.procedure ((exec_steps h).others .rx (Ne.symm hc)))

theorem Config.wf_frameFits {c : Config} (h : c.wf = true) (e : Engine) : footprint c 0 < c.bufSize e := by
  have h' := h
  simp only [Config.wf] at h'
  cases e <;> simp_all [Config.bufSizeOk, footprint, pad8, rd8]

/-- The range that a step stores to fits its space. -/
theorem storeRange_fits {z : ByteSpace} {o n : Nat} (hw : s.cfg.wf = true) (ht : s.TxInRange) (hr : s.RxInRange)
    (h : storeRange i s = some (z, o, n)) : o + n ≤ spaceSize s.cfg z := by
  cases i with
  | codecEncode e =>
    simp only [storeRange] at h
    split at h
    next hpc =>
      cases h
      cases e with
      | tx =>
        obtain ⟨hlen, hfit⟩ := ht.encode hpc
        show _ + footprint s.cfg s.chTx.loc.payload.length ≤ _
        rw [hlen]
        exact hfit
      | rx =>
        obtain ⟨hlen, hfit⟩ := hr.encode hpc
        show _ + footprint s.cfg s.chRx.loc.payload.length ≤ _
        rw [hlen]
        exact hfit
    · cases h
  | txWrite =>
    simp only [storeRange] at h
    split at h
    next hpc => cases h; exact (ht.build (.inl hpc)).frame_fits
    next hpc => cases h; exact (ht.build (.inr (.inl hpc))).frame_fits
    · cases h
      have hfit := Config.wf_frameFits hw .tx
      simp only [spaceSize]
      omega
    · cases h
  | rxRead =>
    simp only [storeRange] at h
    split at h
    next hpc =>
      split at h
      · cases h
      next hc =>
        cases h
        obtain ⟨-, hdest⟩ := hr.read hpc
        simp only [not_or, Nat.not_lt] at hc
        obtain ⟨-, -, hcur⟩ := hc
        simp only [spaceSize]
        omega
    · cases h
  | _ => cases h

end Commands

/-! ## The bytes of every move -/

/-- A row of a transfer inside the window lies inside it (R202). -/
theorem mem_ranges_inside {c : Config} {e : Engine} {r : DmaRec} (h : r.inside c e = true) {x : Nat × Nat}
    (hx : x ∈ r.ranges) : c.bufPhys e ≤ x.1 ∧ x.1 + x.2 ≤ c.bufPhys e + c.bufSize e := by
  simpa using List.all_eq_true.1 h x hx

/-- No space lists a byte past its end. -/
def State.SpacesInBounds (s : State) : Prop := ∀ z, Memory.within (s.space z) (spaceSize s.cfg z)

namespace State.SpacesInBounds

variable {s t : State}

theorem congr (h : s.SpacesInBounds) (hv : t.byteView = s.byteView) (hc : t.cfg = s.cfg) : t.SpacesInBounds := by
  intro z
  rw [State.space_of_byteView hv z, hc]
  exact h z

theorem of_writeMem (h : s.SpacesInBounds) {z : ByteSpace} {o : Nat} {bs : List Byte}
    (hfit : o + bs.length ≤ spaceSize s.cfg z) : (s.writeMem z o bs).SpacesInBounds := by
  intro z'
  have hc : (s.writeMem z o bs).cfg = s.cfg := State.setSpace_cfg ..
  rw [hc]
  by_cases hz : z' = z
  · subst hz
    rw [State.writeMem, State.space_setSpace_same]
    exact Sparse.write_below (h z') hfit
  · rw [State.writeMem, State.space_setSpace_other _ _ _ _ hz]
    exact h z'

/-- The rows of a transfer inside the window end inside the buffer (R202). -/
theorem of_scatter (h : s.SpacesInBounds) {ranges : List (Nat × Nat)} (bs : List Byte)
    (hin : ∀ x ∈ ranges, x.1 - s.cfg.bufPhysRx + x.2 ≤ s.cfg.bufSizeRx) : (s.scatter ranges bs).SpacesInBounds := by
  induction ranges generalizing s bs with
  | nil => exact h
  | cons x xs ih =>
    have hc : (s.writeMem (.buf .rx) (x.1 - s.cfg.bufPhysRx) (bs.take x.2)).cfg = s.cfg := rfl
    refine ih (h.of_writeMem ?_) _ fun y hy => ?_
    · have hx := hin x List.mem_cons_self
      have hl := List.length_take_le x.2 bs
      simp only [spaceSize, Config.bufSize]
      omega
    · rw [hc]
      exact hin y (List.mem_cons_of_mem _ hy)

theorem of_completeRx (h : s.SpacesInBounds) {r : DmaRec} (hin : r.inside s.cfg .rx = true) (rest : List DmaRec)
    (f : List Byte) (tail : List (U32 × List Byte)) : (completeRx r rest f tail s).SpacesInBounds := by
  obtain ⟨u, bs, hu, hv, -, hc⟩ := completeRx_lists r rest f tail s
  have hcfg : (completeRx r rest f tail s).cfg = s.cfg := (keepsChannels_completeRx r rest f tail s).grows.cfg
  have hs : (u.scatter r.ranges bs).SpacesInBounds := by
    refine of_scatter (fun z => by rw [← hu, ← hc]; exact h z) bs fun x hx => ?_
    obtain ⟨hlo, hhi⟩ := mem_ranges_inside hin hx
    simp only [Config.bufPhys, Config.bufSize] at hlo hhi
    rw [← hc]
    omega
  intro z
  have hz := hs z
  rw [State.scatter_frame] at hz
  rw [← hv z, hcfg, hc, State.scatter_frame]
  exact hz

theorem of_exec {i : Instr} (hw : s.cfg.wf = true) (h : s.SpacesInBounds) (ht : s.TxInRange) (hr : s.RxInRange)
    (hx : exec i s = .next t) : t.SpacesInBounds := by
  have hc : t.cfg = s.cfg := by rw [exec_common_frame hx]
  cases exec_stores hx with
  | none _ hv => exact h.congr hv hc
  | some bs hrange hv =>
    exact (h.of_writeMem (storeRange_fits hw ht hr hrange)).congr hv (hc.trans (State.setSpace_cfg ..).symm)

end State.SpacesInBounds

theorem State.bytesInBounds_iff (s : State) : s.BytesInBounds ↔ s.SpacesInBounds ∧ s.TxInRange ∧ s.RxInRange := by
  rw [← State.localsInRange_iff]
  constructor
  · intro h
    refine ⟨fun z => ?_, h.locals⟩
    match z with
    | .buf .tx => exact h.bufTx
    | .buf .rx => exact h.bufRx
    | .hostMem => exact h.hostMem
  · exact fun ⟨h, hl⟩ => ⟨h (.buf .tx), h (.buf .rx), h .hostMem, hl⟩

namespace State.BytesInBounds

variable {s t : State}

/-- A move that stores nothing and moves no channel. -/
theorem congr (h : s.BytesInBounds) (hv : t.byteView = s.byteView) (hk : KeepsChannels s t) : t.BytesInBounds := by
  rw [State.bytesInBounds_iff] at h ⊢
  obtain ⟨hs, ht, hr⟩ := h
  exact ⟨hs.congr hv hk.grows.cfg, ht.congr hk.grows.cfg (congrArg Chan.procedure (hk.chan .tx)),
    hr.congr hk.grows.cfg (congrArg Chan.procedure (hk.chan .rx))⟩

theorem of_exec {i : Instr} (hw : s.cfg.wf = true) (h : s.BytesInBounds) (hx : exec i s = .next t) :
    t.BytesInBounds := by
  rw [State.bytesInBounds_iff] at h ⊢
  obtain ⟨hs, ht, hr⟩ := h
  exact ⟨hs.of_exec hw ht hr hx, exec_txInRange hw ht hx, exec_rxInRange hr hx⟩

/-- A channel put at a label without a range, or where it was. -/
theorem of_setChan (h : s.BytesInBounds) (c : Channel) {y : Chan}
    (hy : y.pc.carriesRange = false ∨ y.procedure = (s.chan c).procedure) : (s.setChan c y).BytesInBounds := by
  rw [State.bytesInBounds_iff] at h ⊢
  obtain ⟨hs, ht, hr⟩ := h
  refine ⟨hs.congr (State.byteView_setChan ..) (State.setChan_cfg ..), ?_, ?_⟩
  · cases c with
    | tx =>
      rcases hy with hy | hy
      · exact .of_pc hy
      · exact ht.congr (t := s.setChan .tx y) rfl hy
    | _ => exact ht.congr rfl rfl
  · cases c with
    | rx =>
      rcases hy with hy | hy
      · exact .of_pc hy
      · exact hr.congr (t := s.setChan .rx y) rfl hy
    | _ => exact hr.congr rfl rfl

theorem of_hostStep {a : HostAct} (h : s.BytesInBounds) (ha : hostStep a s = .next t) : t.BytesInBounds := by
  rcases hostStep_lists ha with hk | ⟨o, bs, hfit, rfl⟩
  · rcases hostStep_eq_next ha with ⟨c, args, rfl⟩ | ⟨w, rfl⟩ | hkc
    · exact h.of_setChan c (.inr rfl)
    · rcases s.issue_cases w with ⟨i, -, -, hi⟩ | ⟨st, hi⟩ <;> rw [hi]
      · refine (h.of_setChan i.channel (.inl ?_)).congr (t := s.begin i w) rfl (keepsChannels_issueStatus _ _)
        cases i <;> rfl
      · exact h.congr rfl (keepsChannels_issueStatus _ _)
    · exact h.congr hk.bytes hkc
  · rw [State.bytesInBounds_iff] at h ⊢
    obtain ⟨hs, ht, hr⟩ := h
    exact ⟨hs.of_writeMem hfit, ht.congr rfl rfl, hr.congr rfl rfl⟩

theorem of_dmacStep (h : s.BytesInBounds) (e : Engine) : (dmacStep e s).BytesInBounds := by
  rcases dmacStep_lists e s with hk | ⟨r, rest, f, tail, hin, hk⟩
  · exact h.congr hk.bytes (keepsChannels_dmacStep e s)
  · have hc := keepsChannels_completeRx r rest f tail s
    rw [State.bytesInBounds_iff] at h
    obtain ⟨hs, ht, hr⟩ := h
    rw [hk, State.bytesInBounds_iff]
    exact ⟨hs.of_completeRx hin rest f tail, ht.congr hc.grows.cfg (congrArg Chan.procedure (hc.chan .tx)),
      hr.congr hc.grows.cfg (congrArg Chan.procedure (hc.chan .rx))⟩

theorem of_reset (s : State) : s.resetEvent.BytesInBounds :=
  ⟨nofun, nofun, nofun, (State.localsInRange_iff _).2 ⟨.of_pc rfl, .of_pc rfl⟩⟩

theorem of_moveBody {m : Move} (hw : s.cfg.wf = true) (h : s.BytesInBounds) (hm : moveBody m s = .next t) :
    t.BytesInBounds := by
  cases m with
  | host a => exact h.of_hostStep hm
  | channel c p =>
    have hp : ({ s with pick := p } : State).BytesInBounds := h.congr rfl (keepsChannels_pick p s)
    rcases channelStep_eq_next hm with ⟨-, rfl⟩ | ⟨-, i, -, -, hi⟩
    · exact hp
    · exact State.BytesInBounds.of_exec (s := { s with pick := p }) hw hp hi
  | worker p =>
    cases hm
    exact (h.congr (t := { s with pick := p }) rfl (keepsChannels_pick p s)).congr (keepsLists_workerStep _).bytes
      (keepsChannels_workerStep _)
  | dmac e =>
    cases hm
    exact h.of_dmacStep e
  | modemRx len f =>
    cases hm
    exact h.congr (modemRxStep_lists len f s).bytes (keepsChannels_modemRxStep len f s)
  | modemTx =>
    cases hm
    exact h
  | clock =>
    cases hm
    exact ⟨h.bufTx, h.bufRx, h.hostMem, h.locals.encodeTx, h.locals.encodeRx, h.locals.plan, h.locals.build,
      h.locals.flush, h.locals.read⟩
  | reset =>
    cases hm
    exact of_reset s

end State.BytesInBounds

/-- Settles O57: a command stores to `storeRange`, which fits by `storeRange_fits`; a transfer to its rows, which lie inside the
window; the host inside its memory. -/
theorem bytesStayInBounds : Obligations.BytesStayInBounds := by
  unfold Obligations.BytesStayInBounds
  intro s t hs h
  obtain ⟨m, u, hw, hu, rfl⟩ := step_eq_moveBody h
  have hn : s.nextMove.2.BytesInBounds := by
    rw [State.nextMove_frame]
    exact hs.congr rfl (.of_frame rfl)
  refine (hn.of_moveBody ?_ hu).congr rfl (keepsChannels_latch u)
  rw [State.nextMove_frame]
  exact hw

end Sys2Proof.Machine
end

section
/-! SUPPORT. The frame codec: little-endian fields and the header layout (R203, R320, R321), the parts of an encoded frame
(R602, R603), and the commands that read a frame (R607, R608). -/

namespace Sys2Proof.Machine

/-! ## Little-endian fields (R11) -/

theorem toNat_append_eq_add {m n : Nat} (x : BitVec m) (y : BitVec n) :
    (x ++ y).toNat = x.toNat * 2 ^ n + y.toNat := by
  rw [BitVec.toNat_append, ← Nat.shiftLeft_add_eq_or_of_lt y.isLt, Nat.shiftLeft_eq]

theorem toNat_getD_le32bytes (v : U32) {k : Nat} (hk : k < 4) :
    ((le32bytes v).getD k 0#8).toNat = v.toNat / 256 ^ k % 256 := by
  have hb : (le32bytes v).getD k 0#8 = v.extractLsb' (8 * k) 8 := by
    interval_cases k <;> rfl
  rw [hb, BitVec.extractLsb'_toNat, Nat.shiftRight_eq_div_pow, Nat.pow_mul]

theorem toNat_getD_le16bytes (v : U16) {k : Nat} (hk : k < 2) :
    ((le16bytes v).getD k 0#8).toNat = v.toNat / 256 ^ k % 256 := by
  have hb : (le16bytes v).getD k 0#8 = v.extractLsb' (8 * k) 8 := by
    interval_cases k <;> rfl
  rw [hb, BitVec.extractLsb'_toNat, Nat.shiftRight_eq_div_pow, Nat.pow_mul]

theorem toNat_le32 (b : List Byte) (i : Nat) :
    (le32 b i).toNat = (b.getD i 0#8).toNat + 2 ^ 8 * (b.getD (i + 1) 0#8).toNat +
      2 ^ 16 * (b.getD (i + 2) 0#8).toNat + 2 ^ 24 * (b.getD (i + 3) 0#8).toNat := by
  unfold le32
  simp only [toNat_append_eq_add]
  omega

theorem toNat_le16 (b : List Byte) (i : Nat) :
    (le16 b i).toNat = (b.getD i 0#8).toNat + 2 ^ 8 * (b.getD (i + 1) 0#8).toNat := by
  unfold le16
  rw [toNat_append_eq_add]
  omega

theorem le32bytes_le32 (b : List Byte) (i : Nat) :
    le32bytes (le32 b i) = [b.getD i 0#8, b.getD (i + 1) 0#8, b.getD (i + 2) 0#8, b.getD (i + 3) 0#8] := by
  have hv := toNat_le32 b i
  simp only [le32bytes, List.cons.injEq, and_true]
  refine ⟨?_, ?_, ?_, ?_⟩ <;>
    (apply BitVec.eq_of_toNat_eq; rw [BitVec.extractLsb'_toNat, hv, Nat.shiftRight_eq_div_pow]; omega)

theorem le16bytes_le16 (b : List Byte) (i : Nat) :
    le16bytes (le16 b i) = [b.getD i 0#8, b.getD (i + 1) 0#8] := by
  have hv := toNat_le16 b i
  simp only [le16bytes, List.cons.injEq, and_true]
  refine ⟨?_, ?_⟩ <;>
    (apply BitVec.eq_of_toNat_eq; rw [BitVec.extractLsb'_toNat, hv, Nat.shiftRight_eq_div_pow]; omega)

/-! ## A field inside a byte string -/

section Slice

variable {b bs : List Byte} {o n : Nat}

theorem getD_of_slice (h : (b.drop o).take n = bs) {k : Nat} (hk : k < n) : b.getD (o + k) 0#8 = bs.getD k 0#8 := by
  rw [← h, List.getD_eq_getElem?_getD, List.getD_eq_getElem?_getD, List.getElem?_take_of_lt hk, List.getElem?_drop]

theorem storedAt_le32 {v : U32} (h : (b.drop o).take 4 = le32bytes v) :
    ∀ k, k < 4 → (b.getD (o + k) 0#8).toNat = v.toNat / 256 ^ k % 256 := fun _ hk => by
  rw [getD_of_slice h hk, toNat_getD_le32bytes v hk]

theorem storedAt_le16 {v : U16} (h : (b.drop o).take 2 = le16bytes v) :
    ∀ k, k < 2 → (b.getD (o + k) 0#8).toNat = v.toNat / 256 ^ k % 256 := fun _ hk => by
  rw [getD_of_slice h hk, toNat_getD_le16bytes v hk]

theorem le32_of_slice {v : U32} (h : (b.drop o).take 4 = le32bytes v) : le32 b o = v := by
  have hs := storedAt_le32 h
  apply BitVec.eq_of_toNat_eq
  have hlt := v.isLt
  rw [toNat_le32, ← Nat.add_zero o, hs 0 (by decide), Nat.add_zero, hs 1 (by decide), hs 2 (by decide), hs 3 (by decide)]
  omega

theorem le16_of_slice {v : U16} (h : (b.drop o).take 2 = le16bytes v) : le16 b o = v := by
  have hs := storedAt_le16 h
  apply BitVec.eq_of_toNat_eq
  have hlt := v.isLt
  rw [toNat_le16, ← Nat.add_zero o, hs 0 (by decide), Nat.add_zero, hs 1 (by decide)]
  omega

end Slice

/-! ## The header (R203, R320, R321) -/

theorem toNat_crcWord (h : Hdr) : (crcWord h).toNat = h.crc.toNat + 2 ^ 16 * h.crc2.toNat := by
  rw [crcWord, toNat_append_eq_add]
  omega

theorem le32bytes_crcWord (h : Hdr) : le32bytes (crcWord h) = le16bytes h.crc ++ le16bytes h.crc2 := by
  have hv := toNat_crcWord h
  have hc := h.crc.isLt
  simp only [le32bytes, le16bytes, List.cons_append, List.nil_append, List.cons.injEq, and_true]
  refine ⟨?_, ?_, ?_, ?_⟩ <;>
    (apply BitVec.eq_of_toNat_eq; simp only [BitVec.extractLsb'_toNat, hv, Nat.shiftRight_eq_div_pow]; omega)

theorem hdrOf_hdrBytes (h : Hdr) : hdrOf (hdrBytes h) = h := by
  cases h
  simp only [hdrOf, Hdr.mk.injEq]
  exact ⟨le32_of_slice rfl, le32_of_slice rfl, le32_of_slice rfl, le32_of_slice rfl, le32_of_slice rfl,
    le32_of_slice rfl, le32_of_slice rfl, le16_of_slice rfl, le16_of_slice rfl⟩

theorem map_getD_range {b : List Byte} {n : Nat} (h : b.length = n) : (List.range n).map (b.getD · 0#8) = b := by
  subst h
  apply List.ext_getElem (by simp)
  intro k hk hk'
  simp [hk']

theorem hdrBytes_hdrOf {b : List Byte} (h : b.length = hdrSize) : hdrBytes (hdrOf b) = b := by
  simp only [hdrBytes, hdrOf, le32bytes_le32, le16bytes_le16]
  exact map_getD_range h

/-- Settles O31: each field is a slice of the header's bytes, and the bytes of a field give it back. -/
theorem headerBytesRoundTrip : Obligations.HeaderBytesRoundTrip := by
  unfold Obligations.HeaderBytesRoundTrip
  refine ⟨fun h => ?_, fun h => ⟨length_hdrBytes h, hdrOf_hdrBytes h⟩, fun b hb => hdrBytes_hdrOf hb⟩
  exact ⟨storedAt_le32 rfl, storedAt_le32 rfl, storedAt_le32 rfl, storedAt_le32 rfl, storedAt_le32 rfl,
    storedAt_le32 rfl, storedAt_le32 rfl, storedAt_le16 rfl, storedAt_le16 rfl,
    storedAt_le32 (le32bytes_crcWord h).symm, toNat_crcWord h⟩

/-! ## Encoding a frame (R602, R603) -/

/-- Reading a part of what was written. -/
theorem State.readMem_writeMem_part (s : State) (z : ByteSpace) (a : Nat) (pre xs post : List Byte) :
    (s.writeMem z a (pre ++ xs ++ post)).readMem z (a + pre.length) xs.length = xs := by
  apply List.ext_getElem (by simp)
  intro k _ hk
  rw [State.getElem_readMem, State.byteAt_writeMem_inside s z a _ _ (by omega) (by simp; omega),
    show a + pre.length + k - a = pre.length + k by omega, List.append_assoc, List.getD_eq_getElem?_getD,
    List.getElem?_append_right (by omega), Nat.add_sub_cancel_left, List.getElem?_append_left hk]
  simp [hk]

theorem DmaRec.mem_ranges {r : DmaRec} {x : Nat × Nat} :
    x ∈ r.ranges ↔ ∃ k, k < r.rows ∧ x = (r.addr + k * r.stride, r.rowLen) := by
  simp [DmaRec.ranges, eq_comm]

/-- When a transfer of the engine overlaps a range: some row of it does (R212, log 4, log 21). -/
theorem State.raced_iff (s : State) (e : Engine) (o n : Nat) :
    s.raced e o n = true ↔ ∃ r ∈ (s.dmac e).queue, ∃ k, k < r.rows ∧ 0 < n ∧ 0 < r.rowLen ∧
      r.addr + k * r.stride < s.cfg.bufPhys e + o + n ∧ s.cfg.bufPhys e + o < r.addr + k * r.stride + r.rowLen := by
  simp only [State.raced, DmaRec.overlaps, List.any_eq_true, DmaRec.mem_ranges, Bool.and_eq_true, decide_eq_true_eq]
  refine exists_congr fun r => and_congr_right fun _ => ⟨?_, ?_⟩
  · rintro ⟨_, ⟨k, hk, rfl⟩, ⟨⟨hlt, hgt⟩, hn⟩, hlen⟩
    exact ⟨k, hk, hn, hlen, hlt, hgt⟩
  · rintro ⟨k, hk, hn, hlen, hlt, hgt⟩
    exact ⟨_, ⟨k, hk, rfl⟩, ⟨⟨hlt, hgt⟩, hn⟩, hlen⟩

theorem State.byteAt_bufWrite (s : State) (e : Engine) (o : Nat) (bs : List Byte) (z : ByteSpace) (a : Nat) :
    (s.bufWrite e o bs).byteAt z a = (s.writeMem (.buf e) o bs).byteAt z a :=
  State.byteAt_congr z a (State.space_of_byteView (State.byteView_bufWrite s e o bs) z) (by cases e <;> rfl)

theorem State.bufWrite_faultBufRace (s : State) (e : Engine) (o : Nat) (bs : List Byte) :
    (s.bufWrite e o bs).faultBufRace = (s.faultBufRace || s.raced e o bs.length) := by
  cases e <;> rfl

/-- Reading a part of an encoded frame. -/
theorem State.readMem_encode_part (s : State) (e : Engine) (o : Nat) (p : List Byte)
    (mtu packId frameId numFrames packSz : U32) {pre xs post : List Byte} {a n : Nat}
    (h : frameBytes s.cfg p mtu packId frameId numFrames packSz = pre ++ xs ++ post) (ha : a = o + pre.length)
    (hn : n = xs.length) : (s.encode e o p mtu packId frameId numFrames packSz).readMem (.buf e) a n = xs := by
  subst ha hn
  rw [State.encode, h, State.readMem_congr fun k _ => State.byteAt_bufWrite ..]
  exact State.readMem_writeMem_part ..

/-- Settles O32: the frame is its four parts in a row, written by one `bufWrite`. -/
theorem encodeWritesFrameLayout : Obligations.EncodeWritesFrameLayout := by
  unfold Obligations.EncodeWritesFrameLayout
  intro s e o p mtu packId frameId numFrames packSz
  have hpad := le_pad8 p.length
  have hlen := length_frameBytes s.cfg p mtu packId frameId numFrames packSz
  refine ⟨?_, ?_, ?_, ?_, fun a ha => ?_, fun z a hz => ?_, ?_, s.raced_iff e o⟩
  · exact s.readMem_encode_part e o p _ _ _ _ _ (pre := [])
      (by rw [List.nil_append, ← List.append_assoc, ← List.append_assoc, frameBytes, encodeHdr]) rfl rfl
  · exact s.readMem_encode_part e o p _ _ _ _ _ (List.append_assoc _ _ _) rfl rfl
  · refine s.readMem_encode_part e o p _ _ _ _ _ rfl (by simp [hdrSize, Nat.add_assoc]) (by simp)
  · refine s.readMem_encode_part e o p _ _ _ _ _ (List.append_nil _).symm ?_ (by simp)
    simp only [List.length_append, length_hdrBytes, hdrSize, List.length_replicate]
    omega
  · rw [State.encode, State.byteAt_bufWrite]
    exact State.byteAt_writeMem_outside s _ o a _ (by rw [hlen]; exact ha)
  · rw [State.encode, State.byteAt_bufWrite]
    exact State.byteAt_writeMem_other s _ z o a _ hz
  · rw [State.encode, State.bufWrite_faultBufRace, hlen]
    rfl

/-! ## The commands that read a frame (R607, R608) -/

theorem bufReadNote_eq (e : Engine) (o n : Nat) (s : State) : s.bufReadNote e o n =
    { s with faultBufRace := s.faultBufRace || (decide (e = Engine.rx) && s.raced e o n) } := by
  cases e
  · simp [State.bufReadNote]
  · simp [State.bufReadNote, State.noteRace]

section Guard

variable {e : Engine} {s : State}

theorem codecGuard_eq_busy (he : e = .rx) (hw : s.worker.pc ≠ .dead) : codecGuard e s = .eBusy :=
  if_pos ⟨he, decide_eq_true hw⟩

theorem codecGuard_of_workerDead (hw : e = .rx → s.worker.pc = .dead) :
    codecGuard e s = if s.isOpen e = false then .eNotOpen else .ok :=
  if_neg fun ⟨he, ha⟩ => of_decide_eq_true ha (hw he)

theorem codecGuard_eq_notOpen (hw : e = .rx → s.worker.pc = .dead) (ho : s.isOpen e = false) :
    codecGuard e s = .eNotOpen := by
  rw [codecGuard_of_workerDead hw, if_pos ho]

theorem codecGuard_eq_ok (hw : e = .rx → s.worker.pc = .dead) (ho : s.isOpen e = true) : codecGuard e s = .ok := by
  rw [codecGuard_of_workerDead hw, if_neg (by simp [ho])]

end Guard

section Commands

variable {e : Engine} {s : State}

theorem exec_codecCrc (hpc : (s.chan e.channel).pc = .crc1) (hg : codecGuard e s = .ok)
    (hfit : (s.chan e.channel).opd.a0.toNat + (s.chan e.channel).opd.a1.toNat ≤ s.cfg.bufSize e) :
    exec (.codecCrc e) s =
      .next ((s.bufReadNote e (s.chan e.channel).opd.a0.toNat (s.chan e.channel).opd.a1.toNat).finish e.channel .ok
        [(crc16 s.cfg (s.readMem (.buf e) (s.chan e.channel).opd.a0.toNat (s.chan e.channel).opd.a1.toNat)).setWidth
          32]) := by
  simp [exec, execCodecCrc, hpc, hg, Nat.not_lt.2 hfit]

theorem exec_codecCrc_guard {st : Status} (hpc : (s.chan e.channel).pc = .crc1) (hg : codecGuard e s = st)
    (hst : st ≠ .ok) : exec (.codecCrc e) s = .next (s.raise e.channel st) := by
  simp [exec, execCodecCrc, hpc, hg, hst]

theorem exec_codecDecode_guard {st : Status} (hpc : (s.chan e.channel).pc = .dec1) (hg : codecGuard e s = st)
    (hst : st ≠ .ok) : exec (.codecDecode e) s = .next (s.raise e.channel st) := by
  simp [exec, execCodecDecode, decodeFetch, hpc, hg, hst]

theorem exec_codecCrc_eSize (hpc : (s.chan e.channel).pc = .crc1) (hg : codecGuard e s = .ok)
    (hlong : s.cfg.bufSize e < (s.chan e.channel).opd.a0.toNat + (s.chan e.channel).opd.a1.toNat) :
    exec (.codecCrc e) s = .next (s.raise e.channel .eSize) := by
  simp [exec, execCodecCrc, hpc, hg, hlong]

theorem exec_codecDecode_eSize (hpc : (s.chan e.channel).pc = .dec1) (hg : codecGuard e s = .ok)
    (hlong : s.cfg.bufSize e < (s.chan e.channel).opd.a0.toNat + hdrSize) :
    exec (.codecDecode e) s = .next (s.raise e.channel .eSize) := by
  simp [exec, execCodecDecode, decodeFetch, hpc, hg, hlong]

section Fetched

variable {o : Nat} {h : Hdr} (ho : (s.chan e.channel).opd.a0.toNat = o) (hh : s.decodeHdr e o = h)
include ho hh

theorem exec_codecDecode_notCopied (hpc : (s.chan e.channel).pc = .dec1) (hg : codecGuard e s = .ok)
    (hfit : o + hdrSize ≤ s.cfg.bufSize e) (hlong : s.cfg.bufSize e < o + hdrSize + h.frameSz.toNat) :
    exec (.codecDecode e) s =
      .next ((s.bufReadNote e o hdrSize).finish e.channel .ok (decodeResults .notCopied h 0#32)) := by
  simp [exec, execCodecDecode, decodeFetch, hpc, hg, ho, hh, Nat.not_lt.2 hfit, hlong]

theorem exec_codecDecode_fetch (hpc : (s.chan e.channel).pc = .dec1) (hg : codecGuard e s = .ok)
    (hfit : o + hdrSize + h.frameSz.toNat ≤ s.cfg.bufSize e) :
    exec (.codecDecode e) s =
      .next ((s.bufReadNote e o hdrSize).gotoWith e.channel .dec2
        { ((s.bufReadNote e o hdrSize).chan e.channel).loc with hdr := h }) := by
  have hhdr : ¬ s.cfg.bufSize e < o + hdrSize := by omega
  simp [exec, execCodecDecode, decodeFetch, hpc, hg, ho, hh, hhdr, Nat.not_lt.2 hfit]

end Fetched

theorem exec_codecDecode_verify {u : State} {o : Nat} {h : Hdr} {p : List Byte}
    (hpc : (u.chan e.channel).pc = .dec2) (ho : (u.chan e.channel).opd.a0.toNat = o)
    (hh : (u.chan e.channel).loc.hdr = h) (hp : u.readMem (.buf e) (o + hdrSize) h.frameSz.toNat = p) :
    exec (.codecDecode e) u =
      .next ((u.bufReadNote e (o + hdrSize) h.frameSz.toNat).finish e.channel .ok
        (decodeResults (verify u.cfg h p) h (if h.crc = h.crc2 then (crc16 u.cfg p).setWidth 32 else 0#32))) := by
  simp [exec, execCodecDecode, decodeVerify, hpc, ho, hh, hp]

theorem verify_code (c : Config) (h : Hdr) (p : List Byte) : (verify c h p).code =
    if h.crc ≠ h.crc2 then 2#32 else if crc16 c p = h.crc then 0#32 else 1#32 := by
  unfold verify
  split
  · rfl
  · split <;> rfl

/-- Of the header's step only the locals and the fault are left when the command ends. -/
theorem finish_bufReadNote_gotoWith (s : State) (e : Engine) (o n : Nat) (b : Bool) (p : Label) (x : Locals) (st : Status)
    (vs : List U32) :
    (({ s with faultBufRace := s.faultBufRace || b } : State).gotoWith e.channel p x |>.bufReadNote e o n).finish
        e.channel st vs =
      { s.setChan e.channel { s.chan e.channel with loc := x } with
        faultBufRace := s.faultBufRace || (b || decide (e = Engine.rx) && s.raced e o n) }.finish e.channel st vs := by
  rw [bufReadNote_eq, ← Bool.or_assoc]
  cases e <;> rfl

/-- The two steps of CODEC.DECODE whose payload fits. -/
theorem execTimes_codecDecode {o : Nat} {h : Hdr} {p : List Byte} (ho : (s.chan e.channel).opd.a0.toNat = o)
    (hh : s.decodeHdr e o = h) (hp : s.readMem (.buf e) (o + hdrSize) h.frameSz.toNat = p)
    (hpc : (s.chan e.channel).pc = .dec1) (hg : codecGuard e s = .ok)
    (hfit : o + hdrSize + h.frameSz.toNat ≤ s.cfg.bufSize e) :
    execTimes (.codecDecode e) 2 s = .next
      ({ s.setChan e.channel { s.chan e.channel with loc := { (s.chan e.channel).loc with hdr := h } } with
          faultBufRace := s.faultBufRace ||
            (decide (e = Engine.rx) && (s.raced e o hdrSize || s.raced e (o + hdrSize) h.frameSz.toNat)) }.finish
        e.channel .ok
        (decodeResults (verify s.cfg h p) h (if h.crc = h.crc2 then (crc16 s.cfg p).setWidth 32 else 0#32))) := by
  have hfetch := exec_codecDecode_fetch ho hh hpc hg hfit
  have hloc : ((s.bufReadNote e o hdrSize).chan e.channel).loc = (s.chan e.channel).loc := by cases e <;> rfl
  rw [hloc, bufReadNote_eq] at hfetch
  have hverify := exec_codecDecode_verify (e := e) (o := o) (h := h) (p := p)
    (u := ({ s with faultBufRace := s.faultBufRace || (decide (e = Engine.rx) && s.raced e o hdrSize) } : State).gotoWith
      e.channel .dec2 { (s.chan e.channel).loc with hdr := h })
    (by rw [State.chan_gotoWith]) (by rw [State.chan_gotoWith, ← ho]; cases e <;> rfl) (by rw [State.chan_gotoWith])
    (by rw [← hp]; cases e <;> rfl)
  rw [State.gotoWith_cfg, finish_bufReadNote_gotoWith, ← Bool.and_or_distrib_left] at hverify
  rw [execTimes_succ hfetch, execTimes_succ hverify, execTimes]

end Commands

/-- Settles O35, by the branches of the command. -/
theorem codecCrcCompletes : Obligations.CodecCrcCompletes := by
  unfold Obligations.CodecCrcCompletes
  intro s e hpc
  refine ⟨fun he hw => exec_codecCrc_guard hpc (codecGuard_eq_busy he hw) nofun, fun hw => ⟨fun ho => ?_, ?_, ?_⟩⟩
  · exact exec_codecCrc_guard hpc (codecGuard_eq_notOpen hw ho) nofun
  · exact fun ho hlong => exec_codecCrc_eSize hpc (codecGuard_eq_ok hw ho) hlong
  · intro ho hfit
    rw [exec_codecCrc hpc (codecGuard_eq_ok hw ho) hfit, bufReadNote_eq]

/-- Settles O34: one step where the payload runs past the buffer, else the header's step and the verdict's. -/
theorem codecDecodeCompletes : Obligations.CodecDecodeCompletes := by
  unfold Obligations.CodecDecodeCompletes
  intro s e hpc
  refine ⟨fun he hw => exec_codecDecode_guard hpc (codecGuard_eq_busy he hw) nofun, fun hw => ⟨fun ho => ?_, ?_, ?_, ?_⟩⟩
  · exact exec_codecDecode_guard hpc (codecGuard_eq_notOpen hw ho) nofun
  · exact fun ho hlong => exec_codecDecode_eSize hpc (codecGuard_eq_ok hw ho) hlong
  · intro ho hfit hlong
    rw [exec_codecDecode_notCopied rfl rfl hpc (codecGuard_eq_ok hw ho) hfit hlong, bufReadNote_eq]
    rfl
  · intro ho hfit
    have hx := execTimes_codecDecode rfl rfl rfl hpc (codecGuard_eq_ok hw ho) hfit
    rw [decodeResults, verify_code] at hx
    exact ⟨_, hx⟩

end Sys2Proof.Machine
end

section
/-! SUPPORT. One step of a DMA controller on its head transfer: start, wild drop, and completion with the bytes moved
(R202, R540, R542, R543, R544). -/

namespace Sys2Proof.Machine

/-! ## The rows of a transfer -/

/-- A transfer lies inside the window when each of its rows does (R202). -/
theorem DmaRec.inside_iff {c : Config} {e : Engine} {r : DmaRec} :
    r.inside c e = true ↔ ∀ k, k < r.rows → c.bufPhys e ≤ r.addr + k * r.stride ∧
      r.addr + k * r.stride + r.rowLen ≤ c.bufPhys e + c.bufSize e := by
  simp only [DmaRec.inside, List.all_eq_true, DmaRec.mem_ranges, Bool.and_eq_true, decide_eq_true_eq]
  constructor
  · exact fun h k hk => h _ ⟨k, hk, rfl⟩
  · rintro h _ ⟨k, hk, rfl⟩
    exact h k hk

theorem DmaRec.not_inside {c : Config} {e : Engine} {r : DmaRec}
    (h : ∃ k, k < r.rows ∧ ¬ (c.bufPhys e ≤ r.addr + k * r.stride ∧
      r.addr + k * r.stride + r.rowLen ≤ c.bufPhys e + c.bufSize e)) : r.inside c e = false := by
  obtain ⟨k, hk, hout⟩ := h
  exact Bool.eq_false_iff.2 fun hin => hout (DmaRec.inside_iff.1 hin k hk)

theorem State.gather_eq (s : State) (r : DmaRec) : s.gather r = (List.range r.rows).flatMap fun k =>
    s.readMem (.buf .tx) (r.addr + k * r.stride - s.cfg.bufPhysTx) r.rowLen := by
  rw [State.gather, DmaRec.ranges, List.map_map, List.flatMap_def]
  rfl

/-! ## The branches of a controller's step -/

section Step

variable {s : State} {e : Engine} {r : DmaRec} {rest : List DmaRec}

theorem Dmac.start_eq (d : Dmac) (r : DmaRec) (rest : List DmaRec) : d.start r rest =
    { d with
      queue := { r with started := true } :: rest
      irqPending := if d.irqMask.getLsbD 0 then d.irqPending else d.irqPending ||| 1#32 } := by
  have hbit : Phase.sot.bit = 0 := rfl
  unfold Dmac.start Dmac.signal
  rw [hbit]
  split <;> rfl

theorem Dmac.complete_eq (d : Dmac) (r : DmaRec) (rest : List DmaRec) : d.complete r rest =
    { d with
      irqPending := if d.irqMask.getLsbD 1 then d.irqPending else d.irqPending ||| 2#32
      transferDone := d.transferDone ||| (1#32 <<< r.id.toNat)
      queue := if r.cyclic then r :: rest else rest } := by
  have hbit : Phase.eot.bit = 1 := rfl
  unfold Dmac.complete Dmac.signal
  rw [hbit]
  split <;> rfl

variable (hq : (s.dmac e).queue = r :: rest) (hen : (s.dmac e).control.getLsbD 0 = true)
include hq hen

theorem dmacStep_not_started (hs : r.started = false) : dmacStep e s = s.setDmac e ((s.dmac e).start r rest) := by
  simp only [dmacStep, hq, Dmac.enabled, hen, hs, Bool.true_eq_false, if_false, if_true]

/-- A started transfer outside the window is dropped once its stream side is ready. -/
theorem dmacStep_wild (hs : r.started = true) (htx : e = .tx → s.mtx.reset.getLsbD 0 = false)
    (hrx : e = .rx → s.mrx.rxq ≠ []) (hout : r.inside s.cfg e = false) : dmacStep e s = dropWild e rest s := by
  cases e with
  | tx => simp only [dmacStep, hq, Dmac.enabled, hen, hs, htx rfl, hout, Bool.true_eq_false, Bool.false_eq_true, if_false]
  | rx =>
    obtain ⟨⟨len, f⟩, q, hrxq⟩ := List.exists_cons_of_ne_nil (hrx rfl)
    simp only [dmacStep, hq, Dmac.enabled, hen, hs, hrxq, hout, Bool.true_eq_false, Bool.false_eq_true, if_false]

end Step

theorem dmacStep_completeTx {s : State} {r : DmaRec} {rest : List DmaRec} (hq : s.dtx.queue = r :: rest)
    (hen : s.dtx.control.getLsbD 0 = true) (hs : r.started = true) (hin : r.inside s.cfg .tx = true)
    (hm : s.mtx.reset.getLsbD 0 = false) : dmacStep .tx s = completeTx r rest s := by
  simp only [dmacStep, State.dmac, hq, Dmac.enabled, hen, hs, hm, hin, Bool.true_eq_false, Bool.false_eq_true, if_false,
    if_true]

theorem dmacStep_completeRx {s : State} {r : DmaRec} {rest : List DmaRec} (hq : s.drx.queue = r :: rest)
    (hen : s.drx.control.getLsbD 0 = true) (hs : r.started = true) (hin : r.inside s.cfg .rx = true)
    {len : U32} {f : List Byte} {q : List (U32 × List Byte)} (hm : s.mrx.rxq = (len, f) :: q) :
    dmacStep .rx s = completeRx r rest f q s := by
  simp only [dmacStep, State.dmac, hq, Dmac.enabled, hen, hs, hm, hin, Bool.true_eq_false, if_false, if_true]

/-! ## The bytes of a received transfer -/

/-- The rows from the one at `addr`, `n` of them. -/
def rowsFrom (addr rowLen stride n : Nat) : List (Nat × Nat) :=
  (List.range n).map fun k => (addr + k * stride, rowLen)

theorem DmaRec.ranges_eq_rowsFrom (r : DmaRec) : r.ranges = rowsFrom r.addr r.rowLen r.stride r.rows := rfl

theorem rowsFrom_succ (addr rowLen stride n : Nat) :
    rowsFrom addr rowLen stride (n + 1) = (addr, rowLen) :: rowsFrom (addr + stride) rowLen stride n := by
  simp only [rowsFrom, List.range_succ_eq_map, List.map_cons, List.map_map, Nat.zero_mul, Nat.add_zero]
  congr 1
  refine List.map_congr_left fun k _ => ?_
  simp only [Function.comp_apply, Nat.succ_mul, Prod.mk.injEq, and_true]
  omega

/-- A byte outside every row stays as it was. -/
theorem State.byteAt_scatter_outside {s : State} {ranges : List (Nat × Nat)} {bs : List Byte} {a : Nat}
    (h : ∀ x ∈ ranges, a < x.1 - s.cfg.bufPhysRx ∨ x.1 - s.cfg.bufPhysRx + x.2 ≤ a) :
    (s.scatter ranges bs).byteAt (.buf .rx) a = s.byteAt (.buf .rx) a := by
  induction ranges generalizing s bs with
  | nil => rfl
  | cons x xs ih =>
    have hx := h x List.mem_cons_self
    have hlen := List.length_take_le x.2 bs
    have hxs : ∀ y ∈ xs, a < y.1 - s.cfg.bufPhysRx ∨ y.1 - s.cfg.bufPhysRx + y.2 ≤ a :=
      fun y hy => h y (List.mem_cons_of_mem _ hy)
    have hcfg : (s.writeMem (.buf .rx) (x.1 - s.cfg.bufPhysRx) (bs.take x.2)).cfg = s.cfg := rfl
    rw [State.scatter, ih (by rw [hcfg]; exact hxs)]
    exact State.byteAt_writeMem_outside s _ _ _ _ (by omega)

/-- Row `i` holds the `i`-th piece of the bytes, where no later row covers it. -/
theorem State.byteAt_scatter_row {s : State} {addr rowLen stride n i k : Nat} {bs : List Byte}
    (hrows : rowLen ≤ stride ∨ n ≤ 1) (hphys : s.cfg.bufPhysRx ≤ addr) (hi : i < n) (hk : k < rowLen)
    (hlen : i * rowLen + k < bs.length) :
    (s.scatter (rowsFrom addr rowLen stride n) bs).byteAt (.buf .rx) (addr + i * stride - s.cfg.bufPhysRx + k) =
      bs.getD (i * rowLen + k) 0#8 := by
  induction n generalizing s addr bs i with
  | zero => exact absurd hi (Nat.not_lt_zero i)
  | succ n ih =>
    have hcfg : (s.writeMem (.buf .rx) (addr - s.cfg.bufPhysRx) (bs.take rowLen)).cfg = s.cfg := rfl
    rw [rowsFrom_succ, State.scatter]
    cases i with
    | zero =>
      simp only [Nat.zero_mul, Nat.add_zero, Nat.zero_add] at hlen ⊢
      have hwrite : k < (bs.take rowLen).length := by
        rw [List.length_take]
        omega
      rw [State.byteAt_scatter_outside, State.byteAt_writeMem_inside _ _ _ _ _ (by omega) (by omega),
        Nat.add_sub_cancel_left, List.getD_eq_getElem?_getD, List.getElem?_take_of_lt hk, ← List.getD_eq_getElem?_getD]
      rw [hcfg]
      intro x hx
      obtain ⟨j, hj, rfl⟩ := List.mem_map.1 hx
      rw [List.mem_range] at hj
      dsimp only
      omega
    | succ i =>
      have hpos : addr + (i + 1) * stride = addr + stride + i * stride := by
        rw [Nat.succ_mul]
        omega
      have hidx : (i + 1) * rowLen + k = rowLen + (i * rowLen + k) := by
        rw [Nat.succ_mul]
        omega
      rw [hidx] at hlen ⊢
      have hrest := ih (s := s.writeMem (.buf .rx) (addr - s.cfg.bufPhysRx) (bs.take rowLen)) (addr := addr + stride)
        (bs := bs.drop rowLen) (i := i) (by omega) (by rw [hcfg]; omega) (by omega)
        (by rw [List.length_drop]; omega)
      rw [hcfg] at hrest
      rw [hpos, hrest, List.getD_eq_getElem?_getD, List.getElem?_drop, ← List.getD_eq_getElem?_getD]

/-- A received frame cut or filled to the length of the transfer begins with the frame's own bytes. -/
theorem getD_filled {f d : List Byte} {n j : Nat} (hf : j < f.length) (hn : j < n) :
    (f.take n ++ d).getD j 0#8 = f.getD j 0#8 := by
  have htake : j < (f.take n).length := by
    rw [List.length_take]
    omega
  rw [List.getD_eq_getElem?_getD, List.getElem?_append_left htake, List.getElem?_take_of_lt hn,
    ← List.getD_eq_getElem?_getD]

/-! ## Completion on engine RX -/

section CompleteRx

variable (s : State) (r : DmaRec) (rest : List DmaRec) (f : List Byte) (q : List (U32 × List Byte))

theorem completeRx_frame : completeRx r rest f q s =
    { s with
      bufRx := (completeRx r rest f q s).bufRx, draws := (completeRx r rest f q s).draws
      mrx := { s.mrx with rxq := q }, drx := s.drx.complete r rest } := by
  unfold completeRx
  dsimp only
  rw [State.scatter_frame]
  rfl

theorem byteAt_completeRx (a : Nat) : (completeRx r rest f q s).byteAt (.buf .rx) a =
    (({ s with draws := s.draws + (r.len - f.length) } : State).scatter r.ranges
      (f.take r.len ++ (s.drawBytes (r.len - f.length)).1)).byteAt (.buf .rx) a :=
  State.byteAt_congr _ _ rfl rfl

variable {s r}

theorem byteAt_completeRx_row (hin : r.inside s.cfg .rx = true) (hrows : r.rowLen ≤ r.stride ∨ r.rows ≤ 1) {i k : Nat}
    (hi : i < r.rows) (hk : k < r.rowLen) (hf : i * r.rowLen + k < f.length) :
    (completeRx r rest f q s).byteAt (.buf .rx) (r.addr + i * r.stride - s.cfg.bufPhysRx + k) =
      f.getD (i * r.rowLen + k) 0#8 := by
  have hphys : s.cfg.bufPhysRx ≤ r.addr := by
    have hfirst := (DmaRec.inside_iff.1 hin 0 (by omega)).1
    rwa [Nat.zero_mul] at hfirst
  have hlen : i * r.rowLen + k < r.len :=
    calc i * r.rowLen + k < (i + 1) * r.rowLen := by rw [Nat.succ_mul]; omega
      _ ≤ r.len := Nat.mul_le_mul_right _ hi
  rw [byteAt_completeRx, DmaRec.ranges_eq_rowsFrom]
  refine (State.byteAt_scatter_row (s := { s with draws := s.draws + (r.len - f.length) }) hrows hphys hi hk ?_).trans
    (getD_filled hf hlen)
  rw [List.length_append, List.length_take]
  omega

theorem byteAt_completeRx_outside {a : Nat} (h : ∀ i, i < r.rows → a < r.addr + i * r.stride - s.cfg.bufPhysRx ∨
    r.addr + i * r.stride - s.cfg.bufPhysRx + r.rowLen ≤ a) :
    (completeRx r rest f q s).byteAt (.buf .rx) a = s.byteAt (.buf .rx) a := by
  rw [byteAt_completeRx]
  refine State.byteAt_scatter_outside (s := { s with draws := s.draws + (r.len - f.length) }) fun x hx => ?_
  obtain ⟨i, hi, rfl⟩ := DmaRec.mem_ranges.1 hx
  exact h i hi

end CompleteRx

/-- Settles O26, by the branches of the controller's step; the bytes of a received transfer are those of `State.scatter`,
row by row. -/
theorem transferStartsThenCompletes : Obligations.TransferStartsThenCompletes := by
  unfold Obligations.TransferStartsThenCompletes
  intro s e r rest hq hen
  refine ⟨fun hs => ?_, fun hs htx hrx hout => ?_, fun hs hrows => ⟨?_, ?_⟩⟩
  · rw [dmacStep_not_started hq hen hs, Dmac.start_eq]
  · exact dmacStep_wild hq hen hs htx hrx (DmaRec.not_inside hout)
  · rintro rfl hm
    rw [dmacStep_completeTx hq hen hs (DmaRec.inside_iff.2 hrows) hm, completeTx, Dmac.complete_eq, State.gather_eq]
    rfl
  · rintro rfl len f q hm
    have hin := DmaRec.inside_iff.2 hrows
    refine ⟨_, dmacStep_completeRx hq hen hs hin hm, ?_, ?_, ?_⟩
    · rw [← Dmac.complete_eq]
      exact completeRx_frame s r rest f q
    · exact fun hdisj i k hi hk hf => byteAt_completeRx_row rest f q hin hdisj hi hk hf
    · exact fun a ha => byteAt_completeRx_outside rest f q ha

end Sys2Proof.Machine
end

section
/-! SUPPORT. Command words taken apart: the opcode half and the field bits of a word, the rows of the opcode table by mask and
match, and the round trip of decoding and encoding (R301 to R305, R310). -/

namespace Sys2Proof.Machine

/-! ## The parts of a word (R302) -/

/-- The opcode half is `UNIT`, `OP` and 16 zeros. -/
theorem and_opcodeBits (w : U32) : w &&& 0xFFFF0000#32 = w.extractLsb' 24 8 ++ w.extractLsb' 16 8 ++ 0#16 := by
  have hmask : (0xFFFF0000#32 : U32) = BitVec.allOnes 16 ++ 0#16 := rfl
  refine BitVec.eq_of_getLsbD_eq fun k hk => ?_
  rw [hmask, BitVec.getLsbD_and, BitVec.getLsbD_append, BitVec.getLsbD_append, BitVec.getLsbD_append,
    BitVec.getLsbD_allOnes]
  by_cases hlow : k < 16
  · simp [hlow]
  · by_cases hop : k - 16 < 8
    · simp [hlow, hop, show k - 16 < 16 by omega, show 16 + (k - 16) = k by omega]
    · simp [hlow, hop, show k - 16 < 16 by omega, show k - 16 - 8 < 8 by omega, show 24 + (k - 16 - 8) = k by omega]

theorem opcode_eq {w : U32} {u o : Nat} (hu : unitField w = u) (ho : opField w = o) :
    w &&& 0xFFFF0000#32 = BitVec.ofNat 8 u ++ BitVec.ofNat 8 o ++ 0#16 := by
  subst hu ho
  rw [and_opcodeBits, unitField, opField, BitVec.ofNat_toNat, BitVec.ofNat_toNat, BitVec.setWidth_eq, BitVec.setWidth_eq]

theorem engBits_engField (w : U32) : engBits (engField w) = w &&& 0x100#32 := by
  have hbit : w &&& 0x100#32 = _ := BitVec.and_twoPow w 8
  rw [hbit, engField]
  split <;> rfl

theorem cycBits_cycField (w : U32) : cycBits (cycField w) = w &&& 0x200#32 := by
  have hbit : w &&& 0x200#32 = _ := BitVec.and_twoPow w 9
  rw [hbit, cycField, cycBits]
  split <;> rfl

theorem cnfBits_cnfField (w : U32) : cnfBits (cnfField w) = w &&& 0x400#32 := by
  have hbit : w &&& 0x400#32 = _ := BitVec.and_twoPow w 10
  rw [hbit, cnfField, cnfBits]
  split <;> rfl

theorem spaceBits_spaceField (w : U32) : spaceBits (spaceField w) = w &&& 0x300#32 := by
  have hlow : w &&& 0x100#32 = _ := BitVec.and_twoPow w 8
  have hhigh : w &&& 0x200#32 = _ := BitVec.and_twoPow w 9
  have hbits : (0x300#32 : U32) = 0x200#32 ||| 0x100#32 := rfl
  rw [hbits, BitVec.and_or_distrib_left, hlow, hhigh, spaceField]
  split <;> split <;> rfl

theorem writeBits_fields (w : U32) :
    engBits (engField w) ||| cycBits (cycField w) ||| cnfBits (cnfField w) = w &&& 0x700#32 := by
  rw [engBits_engField, cycBits_cycField, cnfBits_cnfField, ← BitVec.and_or_distrib_left, ← BitVec.and_or_distrib_left]
  rfl

/-- A word is its opcode half and its field bits, when the remaining bits are 0. -/
theorem eq_of_parts {w m r f : U32} (hm : w &&& 0xFFFF0000#32 = m) (hr : w &&& r = 0#32)
    (hall : 0xFFFF0000#32 ||| r ||| f = BitVec.allOnes 32) : w = m ||| w &&& f := by
  calc w = w &&& (0xFFFF0000#32 ||| r ||| f) := by rw [hall, BitVec.and_allOnes]
    _ = m ||| w &&& f := by rw [BitVec.and_or_distrib_left, BitVec.and_or_distrib_left, hm, hr, BitVec.or_zero]

/-! ## The formats (R303) -/

theorem withFormat_eq_ok {r w : U32} {i j : Instr} (h : withFormat r w j = .ok i) : i = j ∧ w &&& r = 0#32 := by
  unfold withFormat at h
  split at h
  · cases h
    exact ⟨rfl, ‹_›⟩
  · cases h

section Formats

variable {w m : U32} {i : Instr} (hm : w &&& 0xFFFF0000#32 = m)
include hm

theorem eq_encode_of_formatN {j : Instr} (h : formatN w j = .ok i) (hk : encode j = m ||| 0#32) : w = encode i := by
  obtain ⟨rfl, hr⟩ := withFormat_eq_ok h
  rw [hk, eq_of_parts hm hr (f := 0#32) rfl, BitVec.and_zero]

theorem eq_encode_of_formatE {k : Engine → Instr} (h : formatE w k = .ok i)
    (hk : ∀ e, encode (k e) = m ||| engBits e) : w = encode i := by
  obtain ⟨rfl, hr⟩ := withFormat_eq_ok h
  rw [hk, engBits_engField]
  exact eq_of_parts hm hr rfl

theorem eq_encode_of_formatW {k : Engine → Bool → Bool → Instr} (h : formatW w k = .ok i)
    (hk : ∀ e cyc cnf, encode (k e cyc cnf) = m ||| (engBits e ||| cycBits cyc ||| cnfBits cnf)) : w = encode i := by
  obtain ⟨rfl, hr⟩ := withFormat_eq_ok h
  rw [hk, writeBits_fields]
  exact eq_of_parts hm hr rfl

theorem eq_encode_of_formatS {k : Space → Instr} (h : formatS w k = .ok i)
    (hk : ∀ sp, encode (k sp) = m ||| spaceBits sp) : w = encode i := by
  obtain ⟨rfl, hr⟩ := withFormat_eq_ok h
  rw [hk, spaceBits_spaceField]
  exact eq_of_parts hm hr rfl

end Formats

/-! ## The round trip (R303, R305) -/

/-- The word of a command spells it, whatever its fields. -/
theorem decode_encode (i : Instr) : decode (encode i) = .ok i := by
  cases i with
  | regRead sp | regWrite sp | irqMask sp | irqUnmask sp | irqWait sp => cases sp <;> rfl
  | dmaWrite e cyc cnf => cases e <;> cases cyc <;> cases cnf <;> rfl
  | dmaOpen e | dmaRead e | dmaClose e | codecEncode e | codecDecode e | codecCrc e => cases e <;> rfl
  | _ => rfl

/-- No other word spells it: the row fixes the opcode half, the format the bits below it. -/
theorem eq_encode_of_decode {w : U32} {i : Instr} (h : decode w = .ok i) : w = encode i := by
  unfold decode at h
  split at h
  case h_25 => split at h <;> cases h
  case h_7 hu ho => exact eq_encode_of_formatW (opcode_eq hu ho) h fun _ _ _ => rfl
  case h_1 hu ho | h_2 hu ho | h_3 hu ho | h_4 hu ho | h_5 hu ho =>
    exact eq_encode_of_formatS (opcode_eq hu ho) h fun _ => rfl
  case h_6 hu ho | h_8 hu ho | h_9 hu ho | h_10 hu ho | h_11 hu ho | h_12 hu ho =>
    exact eq_encode_of_formatE (opcode_eq hu ho) h fun _ => rfl
  all_goals exact eq_encode_of_formatN (opcode_eq ‹unitField w = _› ‹opField w = _›) h rfl

/-- Settles O1: `decode_encode`, and by the formats no other word. -/
theorem decodeEncodeAgree : Obligations.DecodeEncodeAgree := by
  unfold Obligations.DecodeEncodeAgree
  intro w i
  exact ⟨eq_encode_of_decode, fun h => h ▸ decode_encode i⟩

/-! ## The rows by mask and match (R305, R310) -/

theorem maskOf_and_opcodeBits (i : Instr) : maskOf i &&& 0xFFFF0000#32 = 0xFFFF0000#32 := by
  unfold maskOf
  split <;> rfl

theorem matchOf_and_opcodeBits (i : Instr) : matchOf i &&& 0xFFFF0000#32 = matchOf i := by
  unfold matchOf
  split <;> rfl

/-- Every mask covers the opcode half, and a match word is nothing but one. -/
theorem and_opcodeBits_of_row {w : U32} {i : Instr} (h : w &&& maskOf i = matchOf i) :
    w &&& 0xFFFF0000#32 = matchOf i := by
  rw [← maskOf_and_opcodeBits i, ← BitVec.and_assoc, h, matchOf_and_opcodeBits]

/-- The `mask` column, read off the `match` column: it depends on the row alone. -/
def maskOfMatch (m : U32) : U32 :=
  if m = 0x02020000#32 then 0xFFFFF8FF#32
  else if unitField m = 1 then 0xFFFFFCFF#32
  else if unitField m ≤ 3 then 0xFFFFFEFF#32
  else 0xFFFFFFFF#32

theorem maskOf_eq (i : Instr) : maskOf i = maskOfMatch (matchOf i) := by
  cases i <;> simp [maskOf, matchOf, maskOfMatch, unitField]

/-- The fields of a command lie outside its mask. -/
theorem encode_and_maskOf (i : Instr) : encode i &&& maskOf i = matchOf i := by
  cases i with
  | regRead sp | regWrite sp | irqMask sp | irqUnmask sp | irqWait sp => cases sp <;> rfl
  | dmaWrite e cyc cnf => cases e <;> cases cyc <;> cases cnf <;> rfl
  | dmaOpen e | dmaRead e | dmaClose e | codecEncode e | codecDecode e | codecCrc e => cases e <;> rfl
  | _ => rfl

/-- The command of a row with the fields that a word shows (R302). -/
def withFieldsOf (w : U32) : Instr → Instr
  | .regRead _ => .regRead (spaceField w)
  | .regWrite _ => .regWrite (spaceField w)
  | .irqMask _ => .irqMask (spaceField w)
  | .irqUnmask _ => .irqUnmask (spaceField w)
  | .irqWait _ => .irqWait (spaceField w)
  | .dmaOpen _ => .dmaOpen (engField w)
  | .dmaWrite _ _ _ => .dmaWrite (engField w) (cycField w) (cnfField w)
  | .dmaRead _ => .dmaRead (engField w)
  | .dmaClose _ => .dmaClose (engField w)
  | .codecEncode _ => .codecEncode (engField w)
  | .codecDecode _ => .codecDecode (engField w)
  | .codecCrc _ => .codecCrc (engField w)
  | i => i

theorem matchOf_withFieldsOf (w : U32) (i : Instr) : matchOf (withFieldsOf w i) = matchOf i := by
  cases i <;> rfl

/-- The bits that a row's mask leaves open are the fields of its format. -/
theorem fieldBits_withFieldsOf (w : U32) (i : Instr) : fieldBits (withFieldsOf w i) = w &&& ~~~maskOf i := by
  cases i with
  | regRead sp | regWrite sp | irqMask sp | irqUnmask sp | irqWait sp =>
    exact (spaceBits_spaceField w).trans (by simp [maskOf])
  | dmaWrite e cyc cnf => exact (writeBits_fields w).trans (by simp [maskOf])
  | dmaOpen e | dmaRead e | dmaClose e | codecEncode e | codecDecode e | codecCrc e =>
    exact (engBits_engField w).trans (by simp [maskOf])
  | _ => exact BitVec.and_zero.symm

/-- A word that meets a row is the word of a command of the row. -/
theorem encode_withFieldsOf {w : U32} {i : Instr} (h : w &&& maskOf i = matchOf i) : encode (withFieldsOf w i) = w := by
  calc encode (withFieldsOf w i) = w &&& maskOf i ||| w &&& ~~~maskOf i := by
        rw [encode, matchOf_withFieldsOf, fieldBits_withFieldsOf, h]
    _ = w := by rw [← BitVec.and_or_distrib_left, BitVec.or_not_self, BitVec.and_allOnes]

theorem decode_row_iff (w : U32) (i : Instr) :
    (∃ j, decode w = .ok j ∧ matchOf j = matchOf i) ↔ w &&& maskOf i = matchOf i := by
  constructor
  · rintro ⟨j, hd, hj⟩
    rw [eq_encode_of_decode hd, maskOf_eq, ← hj, ← maskOf_eq, encode_and_maskOf]
  · intro h
    refine ⟨withFieldsOf w i, ?_, matchOf_withFieldsOf w i⟩
    have hd := decode_encode (withFieldsOf w i)
    rwa [encode_withFieldsOf h] at hd

/-- Settles O2: a word of a row is the word of one of its commands, and rows differ in the opcode half. -/
theorem wordSpellsCommandByMaskAndMatch : Obligations.WordSpellsCommandByMaskAndMatch := by
  unfold Obligations.WordSpellsCommandByMaskAndMatch
  intro w
  refine ⟨decode_row_iff w, fun i j hi hj => ?_, fun hnone s => ?_⟩
  · rw [← and_opcodeBits_of_row hi, and_opcodeBits_of_row hj]
  · cases hd : decode w with
    | error x => exact State.issue_illegal hd
    | ok i => exact absurd ((decode_row_iff w i).1 ⟨i, hd, rfl⟩) (hnone i)

/-- Settles O3: the legal words by the round trip, the others by the check that each one fails. -/
theorem sampleWordsDecode : Obligations.SampleWordsDecode := by
  unfold Obligations.SampleWordsDecode
  have spells (w : U32) (i : Instr) (h : w = encode i) : decode w = .ok i := (decodeEncodeAgree w i).2 h
  exact ⟨spells _ _ rfl, spells _ _ rfl, spells _ _ rfl, spells _ _ rfl, spells _ _ rfl, spells _ _ rfl,
    spells _ _ rfl, spells _ _ rfl, spells _ _ rfl, rfl, rfl, rfl⟩

end Sys2Proof.Machine
end

section
/-! SUPPORT. Staging a packet (R713, R714): what one staging step builds, the frames built so far as an invariant of the steps,
and the flush of the whole range (R718). -/

namespace Sys2Proof.Machine

/-! ## One staging step (R714) -/

theorem exec_tsEnc {s : State} (hpc : s.chTx.pc = .tsEnc) : exec .txWrite s = .next (txStage s) := by
  simp only [exec, execTxWrite, hpc]

/-- A frame that is not the last one is followed by the next. -/
theorem txStage_more {s : State} (h : s.chTx.loc.i + 1 < s.chTx.loc.nf) : txStage s =
    (txBuild s).gotoWith .tx .tsEnc { s.chTx.loc with
      i := s.chTx.loc.i + 1, off := s.chTx.loc.off + footprint s.cfg (txFrameSize s.chTx.loc) } :=
  if_pos h

/-- The last frame is followed by the flush of all of them. -/
theorem txStage_last {s : State} (h : s.chTx.loc.i + 1 = s.chTx.loc.nf) : txStage s =
    (txBuild s).gotoWith .tx (.tsFlush .d1) { s.chTx.loc with
      i := s.chTx.loc.i + 1, off := s.chTx.loc.off + footprint s.cfg (txFrameSize s.chTx.loc)
      tEnd := s.chTx.loc.off + footprint s.cfg (txFrameSize s.chTx.loc)
      dma := flushLocals 0 (s.chTx.loc.off + footprint s.cfg (txFrameSize s.chTx.loc)) } :=
  if_neg (by omega)

/-- The bytes of frame `i` of the packet that the locals of `s` describe (R713). -/
def packetFrame (s : State) (i : Nat) : List Byte :=
  let x := s.chTx.loc
  frameBytes s.cfg (s.readMem .hostMem (s.chTx.opd.a0.toNat + i * x.m) (frameSize x.n x.m x.nf i)) (u32 x.m) x.pid
    (u32 i) (u32 x.nf) (u32 x.n)

theorem length_packetFrame (s : State) (i : Nat) : (packetFrame s i).length =
    footprint s.cfg (frameSize s.chTx.loc.n s.chTx.loc.m s.chTx.loc.nf i) := by
  rw [packetFrame, length_frameBytes, State.length_readMem]

/-- The locals with which frame `k` is built: all frames before it are as long as the MTU (R713). -/
def frameLocals (s : State) (k : Nat) : Locals :=
  { s.chTx.loc with i := k, off := k * footprint s.cfg s.chTx.loc.m }

/-- No frame takes more room than one of the size of the MTU. -/
theorem footprint_frameSize_le (c : Config) {n m nf : Nat} (hm : 0 < m) (hnf : nf = ceilDiv n m) (i : Nat) :
    footprint c (frameSize n m nf i) ≤ footprint c m :=
  footprint_mono c (hnf ▸ frameSize_le hm i)

/-- Where the last frame of the packet ends. -/
def packetEnd (s : State) : Nat :=
  let x := s.chTx.loc
  (x.nf - 1) * footprint s.cfg x.m + footprint s.cfg (frameSize x.n x.m x.nf (x.nf - 1))

theorem packetEnd_lt {s : State} (hp : s.packetInRange s.chTx.loc) : packetEnd s < s.cfg.bufSizeTx := by
  obtain ⟨hm, -, hnf, hlt, -, hfit⟩ := hp
  have hnf' : (s.chTx.loc.nf - 1).succ = s.chTx.loc.nf := Nat.sub_add_cancel (Nat.one_le_of_lt hlt)
  calc packetEnd s ≤ (s.chTx.loc.nf - 1) * footprint s.cfg s.chTx.loc.m + footprint s.cfg s.chTx.loc.m :=
        Nat.add_le_add_left (footprint_frameSize_le s.cfg hm hnf _) _
    _ = s.chTx.loc.nf * footprint s.cfg s.chTx.loc.m := by rw [← Nat.succ_mul, hnf']
    _ < s.cfg.bufSizeTx := hfit

/-! ## The frames built so far -/

/-- The first `k` frames of the packet of `s` stand in TXBUF, the last of them ends at `stop`, and beside them only the channel
and the race fault may differ from `s`. -/
structure Staged (s : State) (k stop : Nat) (t : State) : Prop where
  frame : t = { s with chTx := t.chTx, bufTx := t.bufTx, faultBufRace := t.faultBufRace }
  operands : t.chTx.opd = s.chTx.opd
  built : ∀ i, i < k → t.readMem (.buf .tx) (i * footprint s.cfg s.chTx.loc.m)
    (footprint s.cfg (frameSize s.chTx.loc.n s.chTx.loc.m s.chTx.loc.nf i)) = packetFrame s i
  rest : ∀ a, stop ≤ a → t.byteAt (.buf .tx) a = s.byteAt (.buf .tx) a

namespace Staged

variable {s t : State} {k stop : Nat}

theorem refl (s : State) : Staged s 0 0 s where
  frame := rfl
  operands := rfl
  built _ hi := absurd hi (Nat.not_lt_zero _)
  rest _ _ := rfl

/-- Where the channel goes next does not matter. -/
theorem gotoWith (h : Staged s k stop t) (p : Label) (x : Locals) : Staged s k stop (t.gotoWith .tx p x) where
  frame := by rw [State.gotoWith, State.setChan_eq_tx, h.frame]
  operands := h.operands
  built := h.built
  rest := h.rest

theorem cfg_eq (h : Staged s k stop t) : t.cfg = s.cfg := by
  rw [h.frame]

theorem hostMem_eq (h : Staged s k stop t) (a n : Nat) : t.readMem .hostMem a n = s.readMem .hostMem a n := by
  rw [h.frame]
  rfl

/-- The next step builds the frame that the locals of the first state describe: nothing it reads has changed. -/
theorem txBuild_eq (h : Staged s k stop t) (hx : t.chTx.loc = frameLocals s k) :
    txBuild t = t.bufWrite .tx (k * footprint s.cfg s.chTx.loc.m) (packetFrame s k) := by
  simp only [txBuild, txFrameSize, hx, frameLocals, State.encode, packetFrame, h.cfg_eq, h.operands, h.hostMem_eq]

/-- Building the next frame where the frames so far end. -/
theorem build (h : Staged s k (k * footprint s.cfg s.chTx.loc.m) t) (hm : 0 < s.chTx.loc.m)
    (hnf : s.chTx.loc.nf = ceilDiv s.chTx.loc.n s.chTx.loc.m) (hx : t.chTx.loc = frameLocals s k) :
    Staged s (k + 1) (k * footprint s.cfg s.chTx.loc.m +
      footprint s.cfg (frameSize s.chTx.loc.n s.chTx.loc.m s.chTx.loc.nf k)) (txBuild t) := by
  rw [h.txBuild_eq hx]
  refine ⟨?_, h.operands, fun i hi => ?_, fun a ha => ?_⟩
  · rw [h.frame]
    rfl
  · rw [State.readMem_congr fun j _ => State.byteAt_bufWrite ..]
    rcases Nat.lt_succ_iff_lt_or_eq.1 hi with hlt | rfl
    · have hsize := footprint_frameSize_le s.cfg hm hnf i
      have hend : i * footprint s.cfg s.chTx.loc.m + footprint s.cfg s.chTx.loc.m ≤
          k * footprint s.cfg s.chTx.loc.m := Nat.succ_mul .. ▸ Nat.mul_le_mul_right _ hlt
      rw [← h.built i hlt]
      exact State.readMem_congr fun j hj => State.byteAt_writeMem_outside _ _ _ _ _ (.inl (by omega))
    · rw [← length_packetFrame]
      exact State.readMem_writeMem_same ..
  · rw [State.byteAt_bufWrite, State.byteAt_writeMem_outside _ _ _ _ _ (.inr (by rwa [length_packetFrame]))]
    exact h.rest a (by omega)

end Staged

section Staging

variable {s : State} (hpc : s.chTx.pc = .tsEnc) (hp : s.packetInRange s.chTx.loc) (hi : s.chTx.loc.i = 0)
include hpc hp hi

/-- Before the last frame each step builds one and moves on by the footprint of an MTU. -/
theorem execTimes_staging {k : Nat} (hk : k < s.chTx.loc.nf) : ∃ t, execTimes .txWrite k s = .next t ∧
    Staged s k (k * footprint s.cfg s.chTx.loc.m) t ∧ t.chTx.pc = .tsEnc ∧ t.chTx.loc = frameLocals s k := by
  obtain ⟨hm, -, hnf, -, hoff, -⟩ := hp
  induction k with
  | zero =>
    rw [hi] at hoff
    refine ⟨s, rfl, ?_, hpc, ?_⟩
    · rw [Nat.zero_mul]
      exact .refl s
    · rw [frameLocals, ← hoff, ← hi]
  | succ k ih =>
    obtain ⟨t, hrun, hst, htpc, hx⟩ := ih (by omega)
    have hmore : t.chTx.loc.i + 1 < t.chTx.loc.nf := by rw [hx]; exact hk
    have hsize : frameSize s.chTx.loc.n s.chTx.loc.m s.chTx.loc.nf k = s.chTx.loc.m := if_pos hk
    have hb := hst.build hm hnf hx
    rw [hsize, ← Nat.succ_mul] at hb
    have hstep : txStage t = (txBuild t).gotoWith .tx .tsEnc (frameLocals s (k + 1)) := by
      simp only [txStage_more hmore, hx, frameLocals, txFrameSize, hsize, hst.cfg_eq, Nat.succ_mul]
    refine ⟨_, ?_, hb.gotoWith _ _, rfl, rfl⟩
    rw [execTimes_add hrun, execTimes_succ (exec_tsEnc htpc), hstep]
    rfl

/-- After as many steps as frames, the whole packet stands in TXBUF and is about to be flushed. -/
theorem execTimes_staged : ∃ t, execTimes .txWrite s.chTx.loc.nf s = .next t ∧
    Staged s s.chTx.loc.nf (packetEnd s) t ∧ t.chTx.pc = .tsFlush .d1 ∧
    t.chTx.loc.dma = flushLocals 0 (packetEnd s) := by
  obtain ⟨hm, -, hnf, hlt, -⟩ := id hp
  have hpos : 0 < s.chTx.loc.nf := Nat.zero_lt_of_lt hlt
  obtain ⟨t, hrun, hst, htpc, hx⟩ := execTimes_staging hpc hp hi (Nat.sub_one_lt_of_lt hpos)
  have hlast : t.chTx.loc.i + 1 = t.chTx.loc.nf := by rw [hx]; exact Nat.sub_add_cancel hpos
  have hend : t.chTx.loc.off + footprint t.cfg (txFrameSize t.chTx.loc) = packetEnd s := by
    rw [hx, hst.cfg_eq]
    rfl
  have hb := hst.build hm hnf hx
  rw [Nat.sub_add_cancel hpos] at hb
  have hrun' : execTimes .txWrite (s.chTx.loc.nf - 1 + 1) s = .next (txStage t) := by
    rw [execTimes_add hrun, execTimes_succ (exec_tsEnc htpc)]
    rfl
  rw [Nat.sub_add_cancel hpos, txStage_last hlast, hend] at hrun'
  exact ⟨_, hrun', hb.gotoWith _ _, rfl, rfl⟩

end Staging

/-! ## The flush (R714, R718) -/

theorem txFlush_eq_runAs (mk : DmaLabel → Label) (k : State → State) (l : DmaLabel) (s : State) :
    txFlush mk k l s = (dmaStep .tx l s.chTx.loc.dma s).runAs .tx mk (fun _ t => k t) s := by
  unfold txFlush DmaNext.runAs
  cases dmaStep .tx l s.chTx.loc.dma s with
  | go l' d u => rfl
  | ret st v u => cases st <;> rfl
  | blocked => rfl

theorem exec_tsFlush {s : State} {l : DmaLabel} (hpc : s.chTx.pc = .tsFlush l) :
    exec .txWrite s = .next (txFlush .tsFlush (fun t => t.goto .tx .twDone) l s) := by
  simp only [exec, execTxWrite, hpc]

/-- Settles O42: the layout by induction on the frames built, the flush as the run of `dmaStep` that it is. -/
theorem txStagedPacketLayout : Obligations.TxStagedPacketLayout := by
  unfold Obligations.TxStagedPacketLayout
  refine ⟨fun s _ hpc hp hi => ?_, fun s l hpc => by rw [exec_tsFlush hpc, txFlush_eq_runAs]⟩
  obtain ⟨t, hrun, hst, htpc, hdma⟩ := execTimes_staged hpc hp hi
  have hlast : ¬ s.chTx.loc.nf - 1 + 1 < s.chTx.loc.nf := by omega
  refine ⟨t, hrun, hst.frame, htpc, ?_, ?_, ?_, ?_, packetEnd_lt hp, if_neg hlast, hst.built, hst.rest⟩
  all_goals
    rw [hdma]
    rfl

end Sys2Proof.Machine
end

section
/-! SUPPORT. What a register write leaves in every register, queue and line (R403, R541, R545, R851), part by part; what
REG.WRITE answers (R411). -/

namespace Sys2Proof.Machine

/-! ## The registers of a part after a write to one of them (R403) -/

theorem Dmac.read_write_same (d : Dmac) (c : Config) (e : Engine) (k : DReg) (v : U32) :
    (d.write c e k v).read k = writtenValue (.dmac e k) (d.read k) v := by
  cases k <;> rfl

/-- Only a submit changes another register than the one written (R541). -/
theorem Dmac.read_write_other {d : Dmac} {c : Config} {e : Engine} {k k' : DReg} {v : U32} (hs : k ≠ .transferSubmit)
    (h : k' ≠ k) : (d.write c e k v).read k' = d.read k' := by
  cases k
  case transferSubmit => exact absurd rfl hs
  all_goals cases k' <;> first | rfl | exact absurd rfl h

theorem ModemTx.read_write_same (m : ModemTx) (k : TReg) (v : U32) :
    (m.write k v).read k = writtenValue (.mtx k) (m.read k) v := by
  cases k <;> rfl

theorem ModemTx.read_write_other {m : ModemTx} {k k' : TReg} {v : U32} (h : k' ≠ k) :
    (m.write k v).read k' = m.read k' := by
  cases k <;> cases k' <;> first | rfl | exact absurd rfl h

theorem ModemRx.read_write_same (m : ModemRx) (k : RReg) (v : U32) :
    (m.write k v).read k = writtenValue (.mrx k) (m.read k) v := by
  cases k
  case frCoef j => fin_cases j <;> rfl
  all_goals rfl

/-- A coefficient's write leaves every other register, the other coefficients among them. -/
theorem ModemRx.read_write_frCoef {m : ModemRx} {j : Fin 4} {k' : RReg} {v : U32} (h : k' ≠ .frCoef j) :
    (m.write (.frCoef j) v).read k' = m.read k' := by
  cases k'
  case frCoef j' => fin_cases j <;> fin_cases j' <;> first | rfl | exact absurd rfl h
  all_goals fin_cases j <;> rfl

/-- A reset empties `RXQ`, and with it changes `PAYLOAD_LEN`; no other write changes another register (R851). -/
theorem ModemRx.read_write_other {m : ModemRx} {k k' : RReg} {v : U32} (hp : k = .reset → k' ≠ .payloadLen)
    (h : k' ≠ k) : (m.write k v).read k' = m.read k' := by
  cases k
  case frCoef j => exact ModemRx.read_write_frCoef h
  all_goals
    cases k'
    case frCoef j' => fin_cases j' <;> rfl
    all_goals first | rfl | exact absurd rfl h | exact absurd rfl (hp rfl)

/-! ## The queues after a write -/

/-- Beside a submit, only clearing `ENABLE` changes the queue (R541, R545). -/
theorem Dmac.queue_write {d : Dmac} {c : Config} {e : Engine} {k : DReg} {v : U32} (hs : k ≠ .transferSubmit) :
    (d.write c e k v).queue = if k = .control ∧ v.getLsbD 0 = false then [] else d.queue := by
  cases k
  case transferSubmit => exact absurd rfl hs
  case control =>
    simp only [Dmac.write, true_and]
    cases v.getLsbD 0 <;> rfl
  all_goals rfl

theorem ModemRx.rxq_write (m : ModemRx) (k : RReg) (v : U32) :
    (m.write k v).rxq = if k = .reset ∧ v.getLsbD 0 = true then [] else m.rxq := by
  cases k
  case reset => simp [ModemRx.write]
  case frCoef j => fin_cases j <;> rfl
  all_goals rfl

/-! ## The parts of the state after a register write -/

theorem State.dmac_regWrite_other {s : State} {e e' : Engine} {k : DReg} {v : U32} (h : e' ≠ e) :
    (s.regWrite (.dmac e k) v).dmac e' = s.dmac e' :=
  calc (s.regWrite (.dmac e k) v).dmac e'
      = (s.setDmac e ((s.dmac e).write s.cfg e k v)).dmac e' := by cases e' <;> rfl
    _ = s.dmac e' := State.dmac_setDmac_other _ _ _ _ h

/-- A register write changes the four register spaces and the lines only. -/
theorem State.regWrite_frame (s : State) (r : Reg) (v : U32) :
    s.regWrite r v = { s with
      dtx := (s.regWrite r v).dtx, drx := (s.regWrite r v).drx, mtx := (s.regWrite r v).mtx
      mrx := (s.regWrite r v).mrx, lines := (s.regWrite r v).lines } := by
  rcases r with ⟨e, k⟩ | k | k
  · cases e <;> rfl
  · rfl
  · rfl

theorem State.line_regStore (s : State) (r : Reg) (v : U32) (l : Space) : (s.regStore r v).line l = s.line l := by
  rcases r with ⟨e, k⟩ | k | k
  · cases e <;> rfl
  · rfl
  · rfl

/-- The latch rule, at the levels that the write leaves, is all that a register write does to a line (R403, R408). -/
theorem State.line_regWrite (s : State) (r : Reg) (v : U32) (l : Space) :
    (s.regWrite r v).line l = (s.line l).latch ((s.regWrite r v).level l) :=
  calc (s.regWrite r v).line l
      = ((s.regStore r v).line l).latch ((s.regStore r v).level l) := State.line_latch _ _
    _ = (s.line l).latch ((s.regWrite r v).level l) := by rw [State.line_regStore, State.regWrite, State.level_latch]

theorem State.regRead_regWrite_same (s : State) (r : Reg) (v : U32) :
    (s.regWrite r v).regRead r = writtenValue r (s.regRead r) v := by
  rcases r with ⟨e, k⟩ | k | k
  · exact (congrArg (Dmac.read · k) (State.dmac_regWrite s e k v)).trans (Dmac.read_write_same _ _ _ _ _)
  · exact ModemTx.read_write_same _ _ _
  · exact ModemRx.read_write_same _ _ _

/-- A register write leaves every other register, the side effects of a submit and of a reset apart (R403, R541,
R851). -/
theorem State.regRead_regWrite_other {s : State} {r r' : Reg} {v : U32} (hs : ∀ e, r ≠ .dmac e .transferSubmit)
    (hp : r = .mrx .reset → r' ≠ .mrx .payloadLen) (h : r' ≠ r) : (s.regWrite r v).regRead r' = s.regRead r' := by
  rcases r with ⟨e, k⟩ | k | k <;> rcases r' with ⟨e', k'⟩ | k' | k'
  case dmac.dmac =>
    by_cases he : e' = e
    · subst he
      have hk : k ≠ .transferSubmit := fun hk => hs e' (hk ▸ rfl)
      have hk' : k' ≠ k := fun hk' => h (hk' ▸ rfl)
      exact (congrArg (Dmac.read · k') (State.dmac_regWrite s e' k v)).trans (Dmac.read_write_other hk hk')
    · exact congrArg (Dmac.read · k') (State.dmac_regWrite_other he)
  case mtx.mtx => exact ModemTx.read_write_other fun hk => h (hk ▸ rfl)
  case mrx.mrx =>
    exact ModemRx.read_write_other (fun hk hk' => hp (hk ▸ rfl) (hk' ▸ rfl)) fun hk => h (hk ▸ rfl)
  case dmac.mtx => cases e <;> rfl
  case dmac.mrx => cases e <;> rfl
  case mtx.dmac => cases e' <;> rfl
  case mrx.dmac => cases e' <;> rfl
  all_goals rfl

theorem State.queue_regWrite {s : State} {r : Reg} {v : U32} (hs : ∀ e, r ≠ .dmac e .transferSubmit) (e : Engine) :
    ((s.regWrite r v).dmac e).queue =
      if r = .dmac e .control ∧ v.getLsbD 0 = false then [] else (s.dmac e).queue := by
  rcases r with ⟨e', k⟩ | k | k
  · by_cases he : e = e'
    · subst he
      have hk : k ≠ .transferSubmit := fun hk => hs e (hk ▸ rfl)
      rw [show (s.regWrite (.dmac e k) v).dmac e = _ from State.dmac_regWrite s e k v, Dmac.queue_write hk]
      simp only [Reg.dmac.injEq, true_and]
    · rw [State.dmac_regWrite_other he, if_neg]
      rintro ⟨hr, -⟩
      exact he (Reg.dmac.inj hr).1.symm
  · cases e <;> rfl
  · cases e <;> rfl

theorem State.rxq_regWrite (s : State) (r : Reg) (v : U32) :
    (s.regWrite r v).mrx.rxq = if r = .mrx .reset ∧ v.getLsbD 0 = true then [] else s.mrx.rxq := by
  rcases r with ⟨e, k⟩ | k | k
  · cases e <;> rfl
  · rfl
  · rw [State.regWrite_mrx_mrx, ModemRx.rxq_write]
    simp only [Reg.mrx.injEq]

/-- Without bit 0 a submit does nothing (R541). -/
theorem State.dmac_regWrite_noSubmit (s : State) (e : Engine) {v : U32} (hv : v.getLsbD 0 = false) :
    (s.regWrite (.dmac e .transferSubmit) v).dmac e = s.dmac e := by
  refine (State.dmac_regWrite s e .transferSubmit v).trans ?_
  simp only [Dmac.write, hv, Bool.false_eq_true, if_false]

/-- Settles O16, by the rules above: one for the lines, one for the frame, two for the registers, two for the queues. -/
theorem regWriteEffects : Obligations.RegWriteEffects := by
  unfold Obligations.RegWriteEffects
  intro s r v
  refine ⟨s.line_regWrite r v, s.regWrite_frame r v, fun hs r' hp => ?_, State.queue_regWrite, s.rxq_regWrite r v,
    ?_⟩
  · split
    next h => exact h ▸ s.regRead_regWrite_same r' v
    next h => exact State.regRead_regWrite_other hs hp h
  · rintro e rfl hv
    exact s.dmac_regWrite_noSubmit e hv

/-! ## REG.WRITE (R404, R411) -/

theorem execRegWrite_mapped {s : State} {sp : Space} {r : Reg} (hpc : s.chBus.pc = .regWrite)
    (h : regAt s.cfg sp s.chBus.opd.a0 = some r) :
    execRegWrite sp s = .next ((s.regWrite r s.chBus.opd.a1).finish .bus .ok [0#32]) := by
  simp only [execRegWrite, hpc, h]

theorem execRegWrite_unmapped {s : State} {sp : Space} (hpc : s.chBus.pc = .regWrite)
    (h : regAt s.cfg sp s.chBus.opd.a0 = none) : execRegWrite sp s = .next (s.raise .bus .eBus) := by
  simp only [execRegWrite, hpc, h]

/-- Settles O15, by what `regAt` finds in the map. -/
theorem regWriteCompletes : Obligations.RegWriteCompletes := by
  unfold Obligations.RegWriteCompletes
  exact fun s sp hw hpc => ⟨fun r hm => execRegWrite_mapped hpc ((regAt_eq_some_iff hw).2 hm),
    fun h => execRegWrite_unmapped hpc (regAt_eq_none h)⟩

end Sys2Proof.Machine
end

section
/-! SUPPORT. The interrupt lines: what IRQ.MASK, IRQ.UNMASK and IRQ.WAIT answer (R405 to R407, R412 to R414), the latch
rule at the end of every move (R408), and that no move latches the line without a source (R150). -/

namespace Sys2Proof.Machine

/-! ## The latch rule on one line (R408) -/

theorem Line.latch_eq_ite (y : Line) (b : Bool) :
    y.latch b = if b = true ∧ y.masked = false then { masked := true, latched := true } else y := by
  simp only [Line.latch, Bool.and_eq_true, Bool.not_eq_true']

theorem Line.latch_low (y : Line) : y.latch false = y := rfl

theorem Line.masked_latch_high (y : Line) : (y.latch true).masked = true := by
  rcases y with ⟨m, a⟩
  cases m <;> rfl

/-! ## The levels (R150) -/

theorem State.level_mrx_iff (s : State) : s.level .mrx = true ↔
    s.mrx.rxEnable.getLsbD 0 = true ∧ s.mrx.reset.getLsbD 0 = false ∧ s.mrx.rxq ≠ [] := by
  simp only [State.level, Bool.and_eq_true, Bool.not_eq_true', List.isEmpty_eq_false_iff, ne_eq, and_assoc]

/-! ## The bus commands of the lines (R412 to R414) -/

/-- After `IrqUnmask` the line is unmasked, and then every line has met the latch rule (R406). -/
theorem State.line_irqUnmask (s : State) (sp l : Space) : (s.irqUnmask sp).line l =
    (if l = sp then { s.line l with masked := false } else s.line l).latch (s.level l) := by
  rw [State.irqUnmask, State.line_latch, State.level_setLine]
  split
  next h => rw [h, State.line_setLine_same]
  next h => rw [State.line_setLine_other _ _ _ _ h]

/-- The line without a source meets no latch: unmasking any line leaves its latch as it is (R150, R406). -/
theorem State.mtxLatched_irqUnmask (s : State) (sp : Space) :
    (s.irqUnmask sp).lines.mtx.latched = s.lines.mtx.latched := by
  cases sp <;> rfl

theorem State.irqWait_wake {s : State} {sp : Space} {t0 T : Nat} (hp : s.pick = .wake)
    (h : (s.line sp).latched = true) :
    s.irqWait sp t0 T = some (.pending, s.setLine sp { s.line sp with latched := false }) := by
  simp only [State.irqWait, hp, h, if_true]

theorem State.irqWait_expire {s : State} {sp : Space} {t0 T : Nat} (hp : s.pick = .expire)
    (h : s.expired (t0 + T) (s.line sp).latched = true) : s.irqWait sp t0 T = some (.none, s) := by
  simp only [State.irqWait, hp, h, if_true]

theorem State.irqWait_fail {s : State} {sp : Space} {t0 T : Nat} (hp : s.pick = .fail) (h : s.cfg.busMayFail = true) :
    s.irqWait sp t0 T = some (.error, s) := by
  simp only [State.irqWait, hp, h, if_true]

/-- While nothing is latched a wait times out when the clock has reached its deadline, or under abstract time (R20). -/
theorem State.expired_unlatched {s : State} {deadline : Nat} :
    s.expired deadline false = true ↔ deadline ≤ s.timeMs ∨ s.cfg.timeAbstract = true := by
  simp only [State.expired, Bool.or_eq_true, decide_eq_true_eq, Bool.not_false, Bool.and_true]

/-- Before its deadline, with nothing latched and a bus that cannot fail, no completion of a wait is enabled (R407). -/
theorem State.irqWait_not_enabled {s : State} {sp : Space} {t0 T : Nat} (hl : (s.line sp).latched = false)
    (ht : s.timeMs < t0 + T) (ha : s.cfg.timeAbstract = false) (hb : s.cfg.busMayFail = false) :
    s.irqWait sp t0 T = none := by
  refine State.irqWait_eq_none ?_
  cases s.pick with
  | wake => exact hl
  | expire =>
    have he : ¬ s.expired (t0 + T) false = true := by
      rw [State.expired_unlatched, ha]
      exact fun h => h.elim (Nat.not_le_of_lt ht) Bool.false_ne_true
    rw [State.irqWaitTakes, hl]
    exact Bool.eq_false_of_not_eq_true he
  | fail => exact hb

section Wait

variable {s t : State} {sp : Space} (hpc : s.chBus.pc = .irqWait)
include hpc

theorem execIrqWait_pending (h : s.irqWait sp s.chBus.loc.t0 s.chBus.opd.a0.toNat = some (.pending, t)) :
    execIrqWait sp s = .next (t.finish .bus .ok [1#32]) := by
  simp only [execIrqWait, hpc, h]

theorem execIrqWait_timedOut (h : s.irqWait sp s.chBus.loc.t0 s.chBus.opd.a0.toNat = some (.none, t)) :
    execIrqWait sp s = .next (t.finish .bus .ok [0#32]) := by
  simp only [execIrqWait, hpc, h]

theorem execIrqWait_error (h : s.irqWait sp s.chBus.loc.t0 s.chBus.opd.a0.toNat = some (.error, t)) :
    execIrqWait sp s = .next (t.raise .bus .eBus) := by
  simp only [execIrqWait, hpc, h]

theorem execIrqWait_stays (h : s.irqWait sp s.chBus.loc.t0 s.chBus.opd.a0.toNat = none) :
    execIrqWait sp s = .next s := by
  simp only [execIrqWait, hpc, h]

end Wait

/-- Settles O18: the two short commands by their arms, the wait by its three completions and by its standing. -/
theorem irqCommandsComplete : Obligations.IrqCommandsComplete := by
  unfold Obligations.IrqCommandsComplete
  refine fun s sp => ⟨fun hpc => ?mask, fun hpc => ?unmask, fun hpc => ?wait⟩
  case mask => simp only [exec, execIrqMask, hpc, State.irqMask]
  case unmask =>
    refine ⟨(s.irqUnmask sp).lines, ?_, s.line_irqUnmask sp, s.mtxLatched_irqUnmask sp⟩
    simp only [exec, execIrqUnmask, hpc]
    rfl
  case wait =>
    refine ⟨fun hp hl => ?_, fun hp hl ht => ?_, fun hp hb => ?_, fun hl ht ha hb => ?_⟩
    · exact execIrqWait_pending hpc (State.irqWait_wake hp hl)
    · exact execIrqWait_timedOut hpc (State.irqWait_expire hp (hl ▸ State.expired_unlatched.2 ht))
    · exact execIrqWait_error hpc (State.irqWait_fail hp hb)
    · exact execIrqWait_stays hpc (State.irqWait_not_enabled hl ht ha hb)

/-! ## The line without a source, under the steps of the channels (R150) -/

/-- `t` has the line `MTX` latched only if `s` has. -/
def KeepsMtxQuiet (s t : State) : Prop := s.lines.mtx.latched = false → t.lines.mtx.latched = false

theorem KeepsMtxQuiet.of_mtxLine {s t : State} (h : t.lines.mtx = s.lines.mtx) : KeepsMtxQuiet s t := fun hs => h ▸ hs

/-- Where the line is none of the step's own, the latch rule is all that meets it, and its level is low. -/
theorem mtxLine_of_linesKeptBut {own : List Space} {s t : State} (ho : Space.mtx ∉ own) (h : linesKeptBut own s t) :
    t.lines.mtx = s.lines.mtx :=
  (h .mtx ho).elim id fun hl => hl.trans (Line.latch_low _)

theorem mtxLine_writesOnlyTx {i : Instr} {s t : State} (h : writesOnlyTx i s t) : t.lines.mtx = s.lines.mtx := by
  cases i with
  | dmaOpen _ | dmaRead _ | codecEncode _ | codecDecode _ | codecCrc _ | txInit | txSetMtu => rw [h]
  | dmaWrite _ _ _ | dmaClose _ | txReset | txWrite | txClose => exact mtxLine_of_linesKeptBut (by decide) h.2
  | _ => exact False.elim h

theorem mtxLine_writesOnlyRx {i : Instr} {s t : State} (h : writesOnlyRx i s t) : t.lines.mtx = s.lines.mtx := by
  cases i with
  | dmaOpen _ | dmaWrite _ _ _ | codecEncode _ | codecDecode _ | codecCrc _ | rxInit | rxReceive | rxRead => rw [h]
  | dmaRead _ | dmaClose _ | rxReset | rxStart | rxStop | rxClose => exact mtxLine_of_linesKeptBut (by decide) h.2
  | _ => exact False.elim h

theorem keepsMtxQuiet_irqMask (sp : Space) (s : State) : KeepsMtxQuiet s (s.irqMask sp) := by
  cases sp
  case mtx => exact fun _ => rfl
  all_goals exact id

theorem keepsMtxQuiet_irqWait {s t : State} {sp : Space} {t0 T : Nat} {r : IrqResult}
    (h : s.irqWait sp t0 T = some (r, t)) : KeepsMtxQuiet s t := by
  rcases State.irqWait_eq_some h with ⟨-, -, -, rfl⟩ | ⟨-, -, -, rfl⟩ | ⟨-, -, -, rfl⟩
  · cases sp
    case mtx => exact fun _ => rfl
    all_goals exact id
  · exact id
  · exact id

theorem execIrqMask_keepsMtxQuiet (sp : Space) (s : State) : leadsTo (KeepsMtxQuiet s) (execIrqMask sp s) := by
  unfold execIrqMask
  split
  · exact keepsMtxQuiet_irqMask sp s
  · trivial

theorem execIrqUnmask_keepsMtxQuiet (sp : Space) (s : State) : leadsTo (KeepsMtxQuiet s) (execIrqUnmask sp s) := by
  unfold execIrqUnmask
  split
  · exact (s.mtxLatched_irqUnmask sp).trans
  · trivial

theorem execIrqWait_keepsMtxQuiet (sp : Space) (s : State) : leadsTo (KeepsMtxQuiet s) (execIrqWait sp s) := by
  unfold execIrqWait
  split
  · split
    · exact id
    next h => exact (keepsMtxQuiet_irqWait h :)
    next h => exact (keepsMtxQuiet_irqWait h :)
    next h => exact (keepsMtxQuiet_irqWait h :)
  · trivial

/-- The three commands of the lines apart, a command leaves the line `MTX` as it is. -/
theorem exec_keepsMtxQuiet {i : Instr} {s t : State} (h : exec i s = .next t) : KeepsMtxQuiet s t := by
  rcases exec_writesOnly h with ⟨-, hw⟩ | ⟨-, hw⟩ | ⟨-, hw⟩
  · exact .of_mtxLine (mtxLine_writesOnlyTx hw)
  · exact .of_mtxLine (mtxLine_writesOnlyRx hw)
  · cases i with
    | irqMask sp => exact leadsTo_of_next (execIrqMask_keepsMtxQuiet sp s) h
    | irqUnmask sp => exact leadsTo_of_next (execIrqUnmask_keepsMtxQuiet sp s) h
    | irqWait sp => exact leadsTo_of_next (execIrqWait_keepsMtxQuiet sp s) h
    | regRead sp => exact .of_mtxLine (by rw [hw])
    | regWrite sp => cases sp <;> exact .of_mtxLine (mtxLine_of_linesKeptBut (by decide) hw.2)
    | _ => exact False.elim hw

theorem channelStep_keepsMtxQuiet {c : Channel} {s t : State} (h : channelStep c s = .next t) : KeepsMtxQuiet s t := by
  rcases channelStep_eq_next h with ⟨-, rfl⟩ | ⟨-, i, -, -, hi⟩
  · exact id
  · exact exec_keepsMtxQuiet hi

/-! ## The line without a source, under the other agents' steps -/

theorem mtxLine_wWait (s : State) : (wWait s).lines.mtx = s.lines.mtx := by
  unfold wWait
  split
  · rfl
  next h => rcases State.irqWait_eq_some h with ⟨-, -, -, rfl⟩ | ⟨-, -, -, rfl⟩ | ⟨-, -, -, rfl⟩ <;> rfl

theorem mtxLine_wTimeout (s : State) : (wTimeout s).lines.mtx = s.lines.mtx := by
  unfold wTimeout
  split
  · dsimp only
    split <;> rfl
  · rfl

theorem mtxLine_wWoke (s : State) : (wWoke s).lines.mtx = s.lines.mtx := by
  unfold wWoke
  split
  · rfl
  · split
    · rfl
    · exact mtxLine_wTimeout s
    · rfl

theorem mtxLine_wRead (l : DmaLabel) (s : State) : (wRead l s).lines.mtx = s.lines.mtx := by
  unfold wRead
  split
  next h =>
    have hk := dmaStep_keeps .rx l s.worker.dma s
    rw [h] at hk
    exact (mtxLine_of_linesKeptBut (by decide) hk.1.lines :)
  next h => exact eq_of_dmaStep_ret h ▸ rfl
  next h => exact eq_of_dmaStep_ret h ▸ rfl
  next h => exact eq_of_dmaStep_ret h ▸ rfl
  · rfl

/-- The worker masks, unmasks and waits for `MRX`, and its DMA read for `DRX` (R830). -/
theorem mtxLine_workerStep (s : State) : (workerStep s).lines.mtx = s.lines.mtx := by
  unfold workerStep
  split
  · rfl
  · split <;> rfl
  · rfl
  · exact mtxLine_wWait s
  · exact mtxLine_wWoke s
  · unfold wLength
    dsimp only
    split <;> rfl
  · unfold wPlace
    split <;> rfl
  · exact mtxLine_wRead _ s
  · unfold wPublish
    split <;> rfl
  · rfl

/-- A controller moves no line: only the latch rule after its step does (R408, R546). -/
theorem dmacStep_lines (e : Engine) (s : State) : (dmacStep e s).lines = s.lines := by
  have hdrop : ∀ rest, (dropWild e rest s).lines = s.lines := fun rest => by cases e <;> rfl
  unfold dmacStep
  dsimp only
  split
  · rfl
  · split
    · rfl
    · split
      · exact State.setDmac_lines ..
      · cases e
        case tx =>
          dsimp only
          split
          · rfl
          · split
            · rfl
            · exact hdrop _
        case rx =>
          dsimp only
          split
          · rfl
          · split
            · rw [completeRx, State.scatter_frame]
              rfl
            · exact hdrop _

theorem modemRxStep_lines (len : U32) (f : List Byte) (s : State) : (modemRxStep len f s).lines = s.lines := by
  unfold modemRxStep
  split <;> rfl

theorem hostStep_lines {a : HostAct} {s t : State} (h : hostStep a s = .next t) : t.lines = s.lines := by
  cases a with
  | writeArg c i v =>
    simp only [hostStep] at h
    split at h <;> cases h
    · rfl
    · exact State.setChan_lines ..
  | issue w =>
    cases h
    rcases s.issue_cases w with ⟨i, -, -, hi⟩ | ⟨st, hi⟩
    · rw [hi]
      exact State.setChan_lines ..
    · rw [hi]
  | readReg r =>
    simp only [hostStep] at h
    split at h <;> cases h <;> rfl
  | readMem a n =>
    simp only [hostStep] at h
    split at h <;> cases h
    rfl
  | writeMem a bs =>
    simp only [hostStep] at h
    split at h <;> cases h
    rfl

/-! ## Every move (R408) -/

theorem moveBody_keepsMtxQuiet {m : Move} {s t : State} (h : moveBody m s = .next t) : KeepsMtxQuiet s t := by
  cases m with
  | host a => exact .of_mtxLine (congrArg Lines.mtx (hostStep_lines h))
  | channel c p => exact (channelStep_keepsMtxQuiet h :)
  | worker p =>
    cases h
    exact .of_mtxLine (mtxLine_workerStep { s with pick := p })
  | dmac e =>
    cases h
    exact .of_mtxLine (congrArg Lines.mtx (dmacStep_lines e s))
  | modemRx len f =>
    cases h
    exact .of_mtxLine (congrArg Lines.mtx (modemRxStep_lines len f s))
  | modemTx =>
    cases h
    exact id
  | clock =>
    cases h
    exact id
  | reset =>
    cases h
    exact fun _ => rfl

/-- The latch rule settles the lines: it masks every high one, and it never meets the line without a source. -/
theorem State.latch_linesSettled {s : State} (h : s.lines.mtx.latched = false) : s.latch.LinesSettled where
  masked sp hl := by
    rw [State.level_latch] at hl
    rw [State.line_latch, hl]
    exact Line.masked_latch_high _
  mtxQuiet := h

theorem act_linesSettled {m : Move} {s t : State} (hs : s.lines.mtx.latched = false) (h : act m s = .next t) :
    t.LinesSettled := by
  obtain ⟨u, hu, rfl⟩ := act_eq_next h
  exact State.latch_linesSettled (moveBody_keepsMtxQuiet hu hs)

/-- Settles O19: a move is its body and `State.latch` after it, whose effect on one line is `Line.latch_eq_ite`. -/
theorem latchRuleEndsEveryStep : Obligations.LatchRuleEndsEveryStep := by
  unfold Obligations.LatchRuleEndsEveryStep
  refine ⟨fun s => ⟨rfl, decide_eq_true_iff, decide_eq_true_iff, s.level_mrx_iff⟩, fun m s t h => ?_,
    fun s t hs h => ?_⟩
  · obtain ⟨u, hu, rfl⟩ := act_eq_next h
    exact ⟨u, hu, rfl, fun l => ⟨State.level_latch u l, (State.line_latch u l).trans (Line.latch_eq_ite _ _)⟩⟩
  · obtain ⟨-, ha⟩ := step_eq_next h
    refine act_linesSettled ?_ ha
    rw [State.nextMove_frame]
    exact hs.mtxQuiet

end Sys2Proof.Machine
end

section
/-! SUPPORT. Opening and closing an engine (R502, R503), the submit of a transfer (R541), and CODEC.ENCODE (R606): what each
branch of these commands answers. -/

namespace Sys2Proof.Machine

/-! ## DMA.OPEN (R502) -/

section Open

variable {s t : State} {e : Engine} {st : Status}

theorem openEngine_opened (ho : s.isOpen e = true) : s.openEngine e = (.ok, s) := if_pos ho

theorem openEngine_eResource (ho : s.isOpen e = false) (hp : s.cfg.platformOk e = false) :
    s.openEngine e = (.eResource, s) := by
  simp only [State.openEngine, ho, hp, Bool.false_eq_true, if_false, if_true]

theorem openEngine_eMap (ho : s.isOpen e = false) (hp : s.cfg.platformOk e = true) (hm : s.cfg.mapOk e = false) :
    s.openEngine e = (.eMap, s) := by
  simp only [State.openEngine, ho, hp, hm, Bool.false_eq_true, Bool.true_eq_false, if_false, if_true]

theorem openEngine_opens (ho : s.isOpen e = false) (hp : s.cfg.platformOk e = true) (hm : s.cfg.mapOk e = true) :
    s.openEngine e = (.ok, s.setOpen e true) := by
  simp only [State.openEngine, ho, hp, hm, Bool.false_eq_true, Bool.true_eq_false, if_false]

theorem exec_dmaOpen_ok (hpc : (s.chan e.channel).pc = .dmaOpen) (h : s.openEngine e = (.ok, t)) :
    exec (.dmaOpen e) s = .next (t.finish e.channel .ok (bufResults s.cfg e)) := by
  simp only [exec, execDmaOpen, hpc, h]

theorem exec_dmaOpen_raise (hpc : (s.chan e.channel).pc = .dmaOpen) (h : s.openEngine e = (st, t)) (hst : st ≠ .ok) :
    exec (.dmaOpen e) s = .next (t.raise e.channel st) := by
  cases st
  case ok => exact absurd rfl hst
  all_goals simp only [exec, execDmaOpen, hpc, h]

end Open

/-- Settles O20, by the four answers of `State.openEngine`. -/
theorem dmaOpenCompletes : Obligations.DmaOpenCompletes := by
  unfold Obligations.DmaOpenCompletes
  intro s e hpc
  refine ⟨fun ho => ?_, fun ho hp => ?_, fun ho hp hm => ?_, fun ho hp hm => ?_⟩
  · exact exec_dmaOpen_ok hpc (openEngine_opened ho)
  · exact exec_dmaOpen_raise hpc (openEngine_eResource ho hp) nofun
  · exact exec_dmaOpen_raise hpc (openEngine_eMap ho hp hm) nofun
  · exact exec_dmaOpen_ok hpc (openEngine_opens ho hp hm)

/-! ## DMA.CLOSE (R503, R513, R545) -/

theorem workerAlive_eq_false {s : State} (h : s.worker.pc = .dead) : s.workerAlive = false := by
  simp only [State.workerAlive, h, ne_eq, not_true_eq_false, decide_false]

theorem workerAlive_eq_true {s : State} (h : s.worker.pc ≠ .dead) : s.workerAlive = true := decide_eq_true h

/-- The worker is in nobody's way: a command of CH_TX does not ask, and one of CH_RX has found it dead (R513). -/
theorem not_workerOwned {s : State} {e : Engine} (h : e = .rx → s.worker.pc = .dead) :
    ¬ (e = .rx ∧ s.workerAlive = true) := fun ⟨he, ha⟩ =>
  Bool.false_ne_true ((workerAlive_eq_false (h he)).symm.trans ha)

section Close

variable {s : State} {e : Engine}

theorem exec_dmaClose_busy (hpc : (s.chan e.channel).pc = .dcl1) (he : e = .rx) (hw : s.worker.pc ≠ .dead) :
    exec (.dmaClose e) s = .next (s.raise e.channel .eBusy) := by
  simp only [exec, execDmaClose, hpc]
  exact if_pos ⟨he, workerAlive_eq_true hw⟩

theorem exec_dmaClose_closed (hpc : (s.chan e.channel).pc = .dcl1) (hw : e = .rx → s.worker.pc = .dead)
    (ho : s.isOpen e = false) : exec (.dmaClose e) s = .next (s.finish e.channel .ok [0#32]) := by
  simp only [exec, execDmaClose, hpc, if_neg (not_workerOwned hw), ho, if_true]

theorem exec_dmaClose_abort (hpc : (s.chan e.channel).pc = .dcl1) (hw : e = .rx → s.worker.pc = .dead)
    (ho : s.isOpen e = true) :
    exec (.dmaClose e) s = .next ((s.regWrite (.dmac e .control) 0#32).goto e.channel .dcl2) := by
  simp only [exec, execDmaClose, hpc, if_neg (not_workerOwned hw), ho, Bool.true_eq_false, if_false, dReg]

theorem exec_dmaClose_close (hpc : (s.chan e.channel).pc = .dcl2) :
    exec (.dmaClose e) s =
      .next (((s.setLine e.space { masked := true, latched := false }).setOpen e false).finish e.channel .ok [0#32]) := by
  simp only [exec, execDmaClose, hpc, State.irqMask]

theorem execTimes_dmaClose (hpc : (s.chan e.channel).pc = .dcl1) (hw : e = .rx → s.worker.pc = .dead)
    (ho : s.isOpen e = true) :
    execTimes (.dmaClose e) 2 s = .next ((((s.regWrite (.dmac e .control) 0#32).setLine e.space
      { masked := true, latched := false }).setOpen e false).finish e.channel .ok [0#32]) := by
  have hclose := exec_dmaClose_close (s := (s.regWrite (.dmac e .control) 0#32).goto e.channel .dcl2) (e := e)
    (by rw [State.chan_goto])
  rw [execTimes_succ (exec_dmaClose_abort hpc hw ho), execTimes_succ hclose, execTimes]
  cases e <;> rfl

end Close

/-- Settles O21: the two checks, then the abort and the step that masks and closes. -/
theorem dmaCloseCompletes : Obligations.DmaCloseCompletes := by
  unfold Obligations.DmaCloseCompletes
  exact fun s e hpc => ⟨exec_dmaClose_busy hpc, exec_dmaClose_closed hpc, execTimes_dmaClose hpc⟩

/-! ## The submit of a transfer (R541, R545) -/

/-- A write to a register of a controller changes that controller and the lines only. -/
theorem State.regWrite_dmac_frame (s : State) (e : Engine) (k : DReg) (v : U32) : s.regWrite (.dmac e k) v =
    { s.setDmac e ((s.regWrite (.dmac e k) v).dmac e) with lines := (s.regWrite (.dmac e k) v).lines } := by
  cases e <;> rfl

theorem Dmac.write_submit {d : Dmac} {v : U32} (hv : v.getLsbD 0 = true) (c : Config) (e : Engine) :
    d.write c e .transferSubmit v = d.submit c e := by
  simp only [Dmac.write, hv, if_true]

theorem Dmac.submit_ignored {d : Dmac} {c : Config} (h : d.control.getLsbD 0 = false ∨ d.queue.length = c.numTransferIds)
    (e : Engine) : d.submit c e = d := if_pos h

theorem Dmac.submit_appends {d : Dmac} {c : Config} (hen : d.control.getLsbD 0 = true)
    (hroom : d.queue.length ≠ c.numTransferIds) (e : Engine) : d.submit c e =
      { d with
        queue := d.queue ++ [d.newRec e]
        transferDone := d.transferDone &&& ~~~(1#32 <<< d.transferId.toNat)
        transferId := u32 ((d.transferId.toNat + 1) % c.numTransferIds) } :=
  if_neg fun h => h.elim (fun hd => Bool.false_ne_true (hd.symm.trans hen)) hroom

/-- Clearing `ENABLE` aborts (R545). -/
theorem Dmac.write_control_disable {d : Dmac} {v : U32} (hv : v.getLsbD 0 = false) (c : Config) (e : Engine) :
    d.write c e .control v = { d with control := v &&& 0x3#32, queue := [] } := by
  simp only [Dmac.write, hv, Bool.false_eq_true, if_false]

/-- Settles O17, by the branches of `Dmac.submit`. -/
theorem submitAppendsAndDisableAborts : Obligations.SubmitAppendsAndDisableAborts := by
  unfold Obligations.SubmitAppendsAndDisableAborts
  intro s e v
  have hd : ∀ k, (s.regWrite (.dmac e k) v).dmac e = (s.dmac e).write s.cfg e k v := fun k => s.dmac_regWrite e k v
  refine ⟨fun k => s.regWrite_dmac_frame e k v, fun hv => ⟨fun h => ?_, fun hen hroom => ?_⟩, fun hv => ?_⟩
  · rw [hd, Dmac.write_submit hv, Dmac.submit_ignored h]
  · refine ⟨(s.dmac e).newRec e, ?_, rfl, rfl, rfl, rfl, rfl, rfl, ?_, ?_⟩
    · rw [hd, Dmac.write_submit hv, Dmac.submit_appends hen hroom]
    · cases e <;> rfl
    · cases e <;> rfl
  · rw [hd, Dmac.write_control_disable hv]

/-! ## CODEC.ENCODE (R603, R606) -/

section Encode

variable {s : State} {e : Engine}

theorem exec_codecEncode_guard {st : Status} (hpc : (s.chan e.channel).pc = .enc1) (hg : codecGuard e s = st)
    (hst : st ≠ .ok) : exec (.codecEncode e) s = .next (s.raise e.channel st) := by
  simp [exec, execCodecEncode, encodeFetch, hpc, hg, hst]

variable (hpc : (s.chan e.channel).pc = .enc1) (hg : codecGuard e s = .ok)
include hpc hg

theorem exec_codecEncode_source
    (hlong : s.cfg.hostMemSize < (s.chan e.channel).opd.a1.toNat + (s.chan e.channel).opd.a2.toNat) :
    exec (.codecEncode e) s = .next (s.raise e.channel .eSize) := by
  simp [exec, execCodecEncode, encodeFetch, hpc, hg, hlong]

variable (hsrc : (s.chan e.channel).opd.a1.toNat + (s.chan e.channel).opd.a2.toNat ≤ s.cfg.hostMemSize)
include hsrc

theorem exec_codecEncode_destination
    (hlong : s.cfg.bufSize e < (s.chan e.channel).opd.a0.toNat + footprint s.cfg (s.chan e.channel).opd.a2.toNat) :
    exec (.codecEncode e) s = .next (s.raise e.channel .eSize) := by
  simp [exec, execCodecEncode, encodeFetch, hpc, hg, Nat.not_lt.2 hsrc, hlong]

theorem exec_codecEncode_fetch
    (hfit : (s.chan e.channel).opd.a0.toNat + footprint s.cfg (s.chan e.channel).opd.a2.toNat ≤ s.cfg.bufSize e) :
    exec (.codecEncode e) s = .next (s.gotoWith e.channel .enc2 { (s.chan e.channel).loc with
      payload := s.readMem .hostMem (s.chan e.channel).opd.a1.toNat (s.chan e.channel).opd.a2.toNat }) := by
  simp [exec, execCodecEncode, encodeFetch, hpc, hg, Nat.not_lt.2 hsrc, Nat.not_lt.2 hfit]

end Encode

/-- The second step of CODEC.ENCODE: of the first only the locals are left when it ends. -/
theorem exec_codecEncode_store {s : State} {e : Engine} {x : Locals} {p : List Byte} {n : Nat} (hp : x.payload = p)
    (hn : p.length = n) :
    exec (.codecEncode e) (s.gotoWith e.channel .enc2 x) = .next
      (((s.setChan e.channel { s.chan e.channel with loc := x }).encode e (s.chan e.channel).opd.a0.toNat p
        (s.chan e.channel).opd.a3 (s.chan e.channel).opd.a4 (s.chan e.channel).opd.a5 (s.chan e.channel).opd.a6
        (s.chan e.channel).opd.a7).finish e.channel .ok
        [u32 (footprint s.cfg n), (crc16 s.cfg p).setWidth 32]) := by
  subst hp hn
  cases e <;> rfl

/-- The two steps of CODEC.ENCODE whose ranges fit. -/
theorem execTimes_codecEncode {s : State} {e : Engine} {a : Operands} {x : Locals} {p : List Byte}
    (ha : (s.chan e.channel).opd = a) (hp : s.readMem .hostMem a.a1.toNat a.a2.toNat = p)
    (hx : { (s.chan e.channel).loc with payload := p } = x) (hpc : (s.chan e.channel).pc = .enc1)
    (hg : codecGuard e s = .ok) (hsrc : a.a1.toNat + a.a2.toNat ≤ s.cfg.hostMemSize)
    (hfit : a.a0.toNat + footprint s.cfg a.a2.toNat ≤ s.cfg.bufSize e) :
    execTimes (.codecEncode e) 2 s = .next
      (((s.setChan e.channel { s.chan e.channel with loc := x }).encode e a.a0.toNat p a.a3 a.a4 a.a5 a.a6 a.a7).finish
        e.channel .ok [u32 (footprint s.cfg a.a2.toNat), (crc16 s.cfg p).setWidth 32]) := by
  subst ha hp hx
  rw [execTimes_succ (exec_codecEncode_fetch hpc hg hsrc hfit),
    execTimes_succ (exec_codecEncode_store rfl (State.length_readMem _ _ _ _)), execTimes]

/-- Settles O33: the guard and the two ranges at the first step, `Encode` at the second. -/
theorem codecEncodeCompletes : Obligations.CodecEncodeCompletes := by
  unfold Obligations.CodecEncodeCompletes
  intro s e hpc
  refine ⟨fun he hw => ?_, fun hw => ⟨fun ho => ?_, fun ho hlong => ?_, fun ho hsrc hlong => ?_, fun ho hsrc hfit => ?_⟩⟩
  · exact exec_codecEncode_guard hpc (codecGuard_eq_busy he hw) nofun
  · exact exec_codecEncode_guard hpc (codecGuard_eq_notOpen hw ho) nofun
  · exact exec_codecEncode_source hpc (codecGuard_eq_ok hw ho) hlong
  · exact exec_codecEncode_destination hpc (codecGuard_eq_ok hw ho) hsrc hlong
  · exact ⟨_, execTimes_codecEncode rfl rfl rfl hpc (codecGuard_eq_ok hw ho) hsrc hfit⟩

end Sys2Proof.Machine
end

section
/-! SUPPORT. The steps of the DMA procedures one by one (R504, R505, R507, R509, R510), and how DMA.WRITE and DMA.READ run
them (R506, R508, R513). -/

namespace Sys2Proof.Machine

/-! ## The commands that run a DMA procedure -/

/-- One step of a DMA procedure as the body of its command: `DmaNext.runAs` with the completion of the command. -/
theorem dmaCommand_eq_runAs (e : Engine) (cyc cnf : Bool) (l : DmaLabel) (s : State) :
    dmaCommand e cyc cnf l s =
      .next ((dmaStep e l (dmaArgs (s.chan e.channel).opd cyc cnf (s.chan e.channel).loc.dma) s).runAs e.channel .dma
        (fun v t => t.finish e.channel .ok [v]) s) := by
  unfold dmaCommand
  dsimp only
  cases dmaStep e l (dmaArgs (s.chan e.channel).opd cyc cnf (s.chan e.channel).loc.dma) s with
  | go l' d' t => rfl
  | ret st v t => cases st <;> rfl
  | blocked => rfl

/-- The commands whose body is the DMA procedure of an engine: DMA.WRITE of engine TX, and DMA.READ of engine RX past its
check of the worker (R506, R508, R513). -/
inductive DmaBody (s : State) (l : DmaLabel) : Engine → Bool → Bool → Instr → Prop
  | write (cyc cnf : Bool) : DmaBody s l .tx cyc cnf (.dmaWrite .tx cyc cnf)
  | read (hw : l ≠ .d1 ∨ s.worker.pc = .dead) : DmaBody s l .rx false true (.dmaRead .rx)

theorem exec_dmaBody {s : State} {l : DmaLabel} {e : Engine} {cyc cnf : Bool} {i : Instr}
    (hi : DmaBody s l e cyc cnf i) (hpc : (s.chan e.channel).pc = .dma l) : exec i s = dmaCommand e cyc cnf l s := by
  cases hi with
  | write =>
    simp only [exec, execDmaWrite, hpc]
    rfl
  | read hw =>
    have hfree : ¬ (l = .d1 ∧ s.workerAlive = true) := fun ⟨hl, ha⟩ =>
      hw.elim (fun h => h hl) fun h => Bool.false_ne_true ((workerAlive_eq_false h).symm.trans ha)
    simp only [exec, execDmaRead, hpc, if_neg hfree]
    rfl

section Returns

variable {s : State} {l : DmaLabel} {e : Engine} {cyc cnf : Bool} {i : Instr}

theorem exec_dmaBody_raise (hi : DmaBody s l e cyc cnf i) (hpc : (s.chan e.channel).pc = .dma l) {st : Status} {v : U32}
    (h : dmaStep e l (dmaArgs (s.chan e.channel).opd cyc cnf (s.chan e.channel).loc.dma) s = .ret st v s)
    (hst : st ≠ .ok) : exec i s = .next (s.raise e.channel st) := by
  rw [exec_dmaBody hi hpc, dmaCommand_eq_runAs, h]
  cases st
  case ok => exact absurd rfl hst
  all_goals rfl

theorem exec_dmaBody_finish (hi : DmaBody s l e cyc cnf i) (hpc : (s.chan e.channel).pc = .dma l) {v : U32}
    (h : dmaStep e l (dmaArgs (s.chan e.channel).opd cyc cnf (s.chan e.channel).loc.dma) s = .ret .ok v s) :
    exec i s = .next (s.finish e.channel .ok [v]) := by
  rw [exec_dmaBody hi hpc, dmaCommand_eq_runAs, h]
  rfl

end Returns

/-! ## The checks (R504) -/

section Check

variable {e : Engine} {d : DmaLocals} {s : State}

theorem dmaSizeOk_eq_false {c : Config} {off : Nat} {size : U32}
    (h : s32 size < 0 ∨ (c.bufSize e : Int) < (off : Int) + s32 size) : dmaSizeOk c e off size = false := by
  simp only [dmaSizeOk, Bool.and_eq_false_iff, decide_eq_false_iff_not]
  omega

theorem dmaSizeOk_eq_true {c : Config} {off : Nat} {size : U32} (h0 : 0 ≤ s32 size)
    (hfit : (off : Int) + s32 size ≤ (c.bufSize e : Int)) : dmaSizeOk c e off size = true := by
  simp only [dmaSizeOk, h0, hfit, decide_true, Bool.and_self]

theorem dmaStep_notOpen (ho : s.isOpen e = false) : dmaStep e .d1 d s = .ret .eNotOpen 0#32 s := if_pos ho

theorem dmaStep_badSize (ho : s.isOpen e = true)
    (h : s32 d.size < 0 ∨ (s.cfg.bufSize e : Int) < (d.off : Int) + s32 d.size) :
    dmaStep e .d1 d s = .ret .eSize 0#32 s := by
  simp only [dmaStep, dmaCheck, ho, dmaSizeOk_eq_false h, Bool.true_eq_false, if_false, if_true]

theorem dmaStep_nothing (ho : s.isOpen e = true) (h0 : d.size = 0#32) (hfit : d.off ≤ s.cfg.bufSize e) :
    dmaStep e .d1 d s = .ret .ok 0#32 s := by
  have hs : s32 d.size = 0 := by rw [h0]; rfl
  have hok := dmaSizeOk_eq_true (c := s.cfg) (e := e) (off := d.off) (size := d.size) (by omega) (by omega)
  exact (if_neg (by simp [ho])).trans ((if_neg (by simp [hok])).trans (if_pos h0))

theorem dmaStep_passes (ho : s.isOpen e = true) (h0 : 0 < s32 d.size)
    (hfit : (d.off : Int) + s32 d.size ≤ (s.cfg.bufSize e : Int)) : dmaStep e .d1 d s = .go .d2 d s := by
  have hne : d.size ≠ 0#32 := fun h => by
    rw [h] at h0
    exact absurd h0 (by decide)
  simp only [dmaStep, dmaCheck, ho, dmaSizeOk_eq_true (by omega) hfit, hne, Bool.true_eq_false, if_false]

end Check

/-! ## The wait for a phase (R509) -/

section Wait

variable {e : Engine} {d : DmaLocals} {s t : State}

theorem dmaStep_woken (h : s.irqWait e.space d.t0 s.cfg.dmaIrqTimeoutMs = some (.pending, t)) :
    dmaStep e .wp3 d s = .go .wp4 d t := by
  simp only [dmaStep, dmaIrqWait, h]

/-- A wait that times out goes on as if the phase had been seen. -/
theorem dmaStep_timedOut (h : s.irqWait e.space d.t0 s.cfg.dmaIrqTimeoutMs = some (.none, t)) :
    dmaStep e .wp3 d s = afterPhase e d t := by
  simp only [dmaStep, dmaIrqWait, h]

theorem dmaStep_busError (h : s.irqWait e.space d.t0 s.cfg.dmaIrqTimeoutMs = some (.error, t)) :
    dmaStep e .wp3 d s = .ret .eBus 0#32 t := by
  simp only [dmaStep, dmaIrqWait, h]

theorem dmaStep_waits (h : s.irqWait e.space d.t0 s.cfg.dmaIrqTimeoutMs = none) : dmaStep e .wp3 d s = .blocked := by
  simp only [dmaStep, dmaIrqWait, h]

end Wait

theorem waitLabel_sot (e : Engine) : waitLabel e .sot = .wp2 := by cases e <;> rfl

theorem waitLabel_eot (e : Engine) : waitLabel e .eot = if e = .rx then .wp1 else .wp2 := by cases e <;> rfl

/-- Where the next wait for a phase begins: only the read's wait for EOT asks the completion bitmap first. -/
theorem waitLabel_eq (e : Engine) (ph : Phase) : waitLabel e ph = if e = .rx ∧ ph = .eot then .wp1 else .wp2 := by
  cases e <;> cases ph <;> rfl

theorem afterPhase_sot {d : DmaLocals} (h : d.phase = .sot) (e : Engine) (s : State) : afterPhase e d s =
    if e = .tx ∧ d.cnf = false then .go .back d s
    else if d.eotSeen = true then .go .pd1 d s
    else .go (if e = .rx then .wp1 else .wp2) { d with phase := .eot } s := by
  rw [← waitLabel_eot]
  simp only [afterPhase, h]

theorem afterPhase_eot {d : DmaLocals} (h : d.phase = .eot) (e : Engine) (s : State) :
    afterPhase e d s = .go .pd1 d s := by
  simp only [afterPhase, h]

theorem bitWord_cyclic (cyc : Bool) (e : Engine) :
    bitWord (cyc && decide (e = .tx)) = if cyc = true ∧ e = .tx then 1#32 else 0#32 := by
  cases cyc <;> cases e <;> rfl

/-- Settles O25: the refusals by direction and owner, the checks for both commands, the steps of the procedures by the
equations of `dmaStep`, and the commands by `dmaCommand_eq_runAs`. -/
theorem dmaChecksInOrder : Obligations.DmaChecksInOrder := by
  unfold Obligations.DmaChecksInOrder
  refine ⟨fun s cyc cnf hpc => ?_, fun s hpc => ?_, fun s hpc hw => ?_, fun s cyc cnf hpc => ⟨fun ho => ?_, fun ho h => ?_,
    fun ho h0 hfit => ?_⟩, fun s hpc hw => ⟨fun ho => ?_, fun ho h => ?_, fun ho h0 hfit => ?_⟩, fun s e d => ?steps,
    fun s l => ⟨fun cyc cnf hpc => ?_, fun hpc hw => ?_⟩⟩
  · simp [exec, execDmaWrite, Engine.channel, hpc]
  · simp [exec, execDmaRead, Engine.channel, hpc]
  · simp [exec, execDmaRead, Engine.channel, hpc, workerAlive_eq_true hw]
  · exact exec_dmaBody_raise (.write cyc cnf) hpc (dmaStep_notOpen ho) nofun
  · exact exec_dmaBody_raise (.write cyc cnf) hpc (dmaStep_badSize ho h) nofun
  · exact exec_dmaBody_finish (.write cyc cnf) hpc (dmaStep_nothing ho h0 hfit)
  · exact exec_dmaBody_raise (.read (.inr hw)) hpc (dmaStep_notOpen ho) nofun
  · exact exec_dmaBody_raise (.read (.inr hw)) hpc (dmaStep_badSize ho h) nofun
  · exact exec_dmaBody_finish (.read (.inr hw)) hpc (dmaStep_nothing ho h0 hfit)
  case steps =>
    intro seen bit doneBit
    have hseen : ∀ d' t, afterPhase e d' t = seen d' t := fun d' t => by
      cases hp : d'.phase with
      | sot => simp only [afterPhase_sot hp, seen, hp]
      | eot => simp only [afterPhase_eot hp, seen, hp]
    have hbit : d.phase.bit = bit := by
      cases hp : d.phase <;> simp only [Phase.bit, bit, hp]
    refine ⟨dmaStep_passes, rfl, rfl, rfl, rfl, ?_, ?_, ?_, rfl, rfl, rfl, ?_, ?_,
      ⟨_, rfl, s.line_irqUnmask e.space⟩, fun hp hl => dmaStep_woken (State.irqWait_wake hp hl), fun hp hl ht => ?_,
      fun hp hb => dmaStep_busError (State.irqWait_fail hp hb),
      fun hl ht ha hb => dmaStep_waits (State.irqWait_not_enabled hl ht ha hb), rfl, ?_, rfl, rfl⟩
    · rw [← bitWord_cyclic]
      rfl
    · cases e <;> rfl
    · cases e <;> rfl
    · rw [← waitLabel_sot e]
      rfl
    · rw [← hseen]
      rfl
    · rw [← hseen]
      exact dmaStep_timedOut (State.irqWait_expire hp (hl ▸ State.expired_unlatched.2 ht))
    · intro d' t
      rw [← waitLabel_eq, ← hseen, ← hbit]
      rfl
  · rw [exec_dmaBody (.write cyc cnf) hpc, dmaCommand_eq_runAs]
    rfl
  · rw [exec_dmaBody (.read hw) hpc, dmaCommand_eq_runAs]
    rfl

end Sys2Proof.Machine
end

section
/-! SUPPORT. A DMA command run along a schedule in which it meets no other agent than its controller: where its procedure
stands after each move, and what its controller holds then (R505, R507, R509, R510, R541 to R543). -/

namespace Sys2Proof.Machine

/-! ## Where a procedure stands -/

/-- Where the DMA procedure of a command stands: its label, its locals and the registers of its controller. -/
structure DmaPoint where
  label : DmaLabel
  loc : DmaLocals
  ctrl : Dmac

/-- The state `s` with the channel of an engine inside a DMA procedure, and its controller, the lines, the pick and the time
as the run has left them. -/
def State.dmaAt (s : State) (e : Engine) (l : DmaLabel) (x : Locals) (m : Dmac) (ls : Lines) (p : Pick) (T : Nat) :
    State :=
  { (s.setDmac e m).setChan e.channel { s.chan e.channel with pc := .dma l, loc := x } with
    lines := ls, pick := p, timeMs := T }

/-- `u` is a state of the run that began in `s`: its procedure stands at a point at time `T`, and no other part of the state
has moved. -/
def State.InDma (s : State) (e : Engine) (cyc cnf : Bool) (P : DmaPoint) (T : Nat) (u : State) : Prop :=
  ∃ x ls p, u = s.dmaAt e P.label x P.ctrl ls p T ∧ dmaArgs (s.chan e.channel).opd cyc cnf x.dma = P.loc

/-- The command `i` of the channel runs the procedure of its engine, at every label (R506, R508, R513). -/
structure State.RunsProcedure (s : State) (e : Engine) (cyc cnf : Bool) (i : Instr) : Prop where
  body : ∀ l, DmaBody s l e cyc cnf i
  busy : (s.chan e.channel).busy = true
  decodes : decode (s.chan e.channel).cmd = .ok i

theorem DmaBody.channel {s : State} {l : DmaLabel} {e : Engine} {cyc cnf : Bool} {i : Instr}
    (h : DmaBody s l e cyc cnf i) : i.channel = e.channel := by
  cases h <;> rfl

theorem DmaBody.congr {s u : State} {l : DmaLabel} {e : Engine} {cyc cnf : Bool} {i : Instr}
    (h : DmaBody s l e cyc cnf i) (hw : u.worker = s.worker) : DmaBody u l e cyc cnf i := by
  cases h with
  | write => exact .write cyc cnf
  | read hd => exact .read (hw ▸ hd)

section Point

variable {s u : State} {e : Engine} {cyc cnf : Bool} {P Q : DmaPoint} {T : Nat}

namespace State.InDma

theorem first (hpc : (s.chan e.channel).pc = .dma .d1) :
    s.InDma e cyc cnf ⟨.d1, dmaArgs (s.chan e.channel).opd cyc cnf (s.chan e.channel).loc.dma, s.dmac e⟩ s.timeMs s := by
  refine ⟨(s.chan e.channel).loc, s.lines, s.pick, ?_, rfl⟩
  rw [State.dmaAt, ← hpc]
  cases e <;> rfl

theorem ctrl (h : s.InDma e cyc cnf P T u) : u.dmac e = P.ctrl := by
  obtain ⟨x, ls, p, rfl, -⟩ := h
  cases e <;> rfl

theorem ctrl_eq {l : DmaLabel} {d : DmaLocals} {m : Dmac} (h : s.InDma e cyc cnf ⟨l, d, m⟩ T u) : u.dmac e = m := h.ctrl

theorem cfg (h : s.InDma e cyc cnf P T u) : u.cfg = s.cfg := by
  obtain ⟨x, ls, p, rfl, -⟩ := h
  cases e <;> rfl

theorem timeMs (h : s.InDma e cyc cnf P T u) : u.timeMs = T := by
  obtain ⟨x, ls, p, rfl, -⟩ := h
  rfl

theorem worker (h : s.InDma e cyc cnf P T u) : u.worker = s.worker := by
  obtain ⟨x, ls, p, rfl, -⟩ := h
  cases e <;> rfl

theorem isOpen (h : s.InDma e cyc cnf P T u) : u.isOpen e = s.isOpen e := by
  obtain ⟨x, ls, p, rfl, -⟩ := h
  cases e <;> rfl

theorem pc (h : s.InDma e cyc cnf P T u) : (u.chan e.channel).pc = .dma P.label := by
  obtain ⟨x, ls, p, rfl, -⟩ := h
  cases e <;> rfl

theorem loc (h : s.InDma e cyc cnf P T u) :
    dmaArgs (u.chan e.channel).opd cyc cnf (u.chan e.channel).loc.dma = P.loc := by
  obtain ⟨x, ls, p, rfl, hx⟩ := h
  cases e <;> exact hx

theorem pick (h : s.InDma e cyc cnf P T u) (p : Pick) : s.InDma e cyc cnf P T { u with pick := p } := by
  obtain ⟨x, ls, -, rfl, hx⟩ := h
  exact ⟨x, ls, p, rfl, hx⟩

theorem setLines (h : s.InDma e cyc cnf P T u) (ls : Lines) : s.InDma e cyc cnf P T { u with lines := ls } := by
  obtain ⟨x, -, p, rfl, hx⟩ := h
  exact ⟨x, ls, p, rfl, hx⟩

theorem latch (h : s.InDma e cyc cnf P T u) : s.InDma e cyc cnf P T u.latch := h.setLines _

/-- A step of the procedure that goes on: its caller moves to the label, and the controller is as the step left it. -/
theorem gotoWith (h : s.InDma e cyc cnf P T u) {v : State} (hv : dmaStep e P.label P.loc u = .go Q.label Q.loc v)
    (hctrl : v.dmac e = Q.ctrl) :
    s.InDma e cyc cnf Q T
      (v.gotoWith e.channel (.dma Q.label) { (v.chan e.channel).loc with dma := Q.loc }) := by
  have hk := dmaStep_keeps e P.label P.loc u
  rw [hv] at hk
  obtain ⟨⟨⟨m, ls, rfl⟩, -, -⟩, hoff, hsize, hcyc, hcnf⟩ := hk
  obtain ⟨x, ls', p, rfl, hx⟩ := h
  refine ⟨{ x with dma := Q.loc }, ls, p, by rw [← hctrl]; cases e <;> rfl, ?_⟩
  rw [← hx] at hoff hsize hcyc hcnf
  show dmaArgs (s.chan e.channel).opd cyc cnf Q.loc = Q.loc
  unfold dmaArgs at hoff hsize hcyc hcnf ⊢
  dsimp only at hoff hsize hcyc hcnf
  rw [← hoff, ← hsize, ← hcyc, ← hcnf]

end State.InDma

variable {i : Instr}

theorem State.InDma.body (h : s.InDma e cyc cnf P T u) (hi : ∀ l, DmaBody s l e cyc cnf i) :
    ∀ l, DmaBody u l e cyc cnf i := fun l => (hi l).congr h.worker

/-- A step of the command is a step of its procedure. -/
theorem State.InDma.exec_go (h : s.InDma e cyc cnf P T u) (hi : ∀ l, DmaBody s l e cyc cnf i) {l : DmaLabel}
    {d : DmaLocals} {v : State} (hv : dmaStep e P.label P.loc u = .go l d v) :
    exec i u = .next (v.gotoWith e.channel (.dma l) { (v.chan e.channel).loc with dma := d }) := by
  rw [exec_dmaBody (h.body hi _) h.pc, dmaCommand_eq_runAs, h.loc, hv]
  rfl

/-- The return of the size. -/
theorem State.InDma.exec_back (h : s.InDma e cyc cnf P T u) (hi : ∀ l, DmaBody s l e cyc cnf i) (hl : P.label = .back) :
    exec i u = .next (u.finish e.channel .ok [P.loc.size]) := by
  refine exec_dmaBody_finish (h.body hi P.label) h.pc ?_
  rw [h.loc, hl]
  rfl

/-- A channel's move is its command's step, with the latch rule after it. -/
theorem State.InDma.act_channel (h : s.InDma e cyc cnf P T u) (hr : s.RunsProcedure e cyc cnf i) (p : Pick) :
    act (.channel e.channel p) u = onNext State.latch (exec i { u with pick := p }) := by
  have hchan : ∀ {α : Type} (f : Chan → α), (∀ y l x, f { y with pc := l, loc := x } = f y) →
      f (({ u with pick := p } : State).chan e.channel) = f (s.chan e.channel) := fun f hf => by
    obtain ⟨x, ls, q, rfl, -⟩ := h
    cases e <;> exact hf _ _ _
  refine congrArg (onNext State.latch) (channelStep_eq_exec ?_ ?_ (hr.body .d1).channel)
  · rw [hchan Chan.busy fun _ _ _ => rfl, hr.busy]
  · rw [hchan Chan.cmd fun _ _ _ => rfl, hr.decodes]

theorem State.InDma.act_go (h : s.InDma e cyc cnf P T u) (hr : s.RunsProcedure e cyc cnf i) {p : Pick} {l : DmaLabel}
    {d : DmaLocals} {v : State} (hv : dmaStep e P.label P.loc { u with pick := p } = .go l d v) :
    act (.channel e.channel p) u =
      .next (v.gotoWith e.channel (.dma l) { (v.chan e.channel).loc with dma := d }).latch :=
  (h.act_channel hr p).trans (congrArg (onNext State.latch) ((h.pick p).exec_go hr.body hv))

end Point

/-! ## Steps and schedules -/

section Goes

variable (s : State) (e : Engine) (cyc cnf : Bool) (T : Nat)

/-- From one point the procedure goes on to another in one step, whatever the lines and the pick are. -/
def State.Goes (P Q : DmaPoint) : Prop :=
  ∀ u, s.InDma e cyc cnf P T u → ∃ v, dmaStep e P.label P.loc u = .go Q.label Q.loc v ∧ v.dmac e = Q.ctrl

/-- The same in a number of steps. -/
inductive State.GoesIn : Nat → DmaPoint → DmaPoint → Prop
  | refl (P : DmaPoint) : GoesIn 0 P P
  | step {n : Nat} {P Q R : DmaPoint} (h : s.Goes e cyc cnf T P Q) (hs : GoesIn n Q R) : GoesIn (n + 1) P R

/-- Every state with the one property is led by the schedule to a state with the other. -/
def Drives (ms : List Move) (A B : State → Prop) : Prop := ∀ u, A u → ∃ v, actAll ms u = .next v ∧ B v

end Goes

theorem Drives.append {ms ns : List Move} {A B C : State → Prop} (h : Drives ms A B) (h' : Drives ns B C) :
    Drives (ms ++ ns) A C := fun u hu => by
  obtain ⟨v, hv, hB⟩ := h u hu
  obtain ⟨w, hw, hC⟩ := h' v hB
  exact ⟨w, (actAll_append hv).trans hw, hC⟩

theorem Drives.single {m : Move} {A B : State → Prop} (h : ∀ u, A u → ∃ v, act m u = .next v ∧ B v) :
    Drives [m] A B := fun u hu => by
  obtain ⟨v, hv, hB⟩ := h u hu
  exact ⟨v, actAll_cons hv, hB⟩

section Run

variable {s : State} {e : Engine} {cyc cnf : Bool} {P Q : DmaPoint} {T n : Nat} {i : Instr}

/-- A step whose state is its register write. -/
theorem State.Goes.write {l l' : DmaLabel} {d d' : DmaLocals} {m : Dmac} (k : DReg) (v : U32)
    (h : ∀ u : State, u.cfg = s.cfg → dmaStep e l d u = .go l' d' (u.regWrite (dReg e k) v)) :
    s.Goes e cyc cnf T ⟨l, d, m⟩ ⟨l', d', m.write s.cfg e k v⟩ := fun u hu =>
  ⟨_, h u hu.cfg, by rw [State.dmac_regWrite, hu.ctrl, hu.cfg]⟩

/-- A step that only reads, or unmasks its line. -/
theorem State.Goes.read {l l' : DmaLabel} {d d' : DmaLocals} {m : Dmac}
    (h : ∀ u, s.InDma e cyc cnf ⟨l, d, m⟩ T u → ∃ ls, dmaStep e l d u = .go l' d' { u with lines := ls }) :
    s.Goes e cyc cnf T ⟨l, d, m⟩ ⟨l', d', m⟩ := fun u hu => by
  obtain ⟨ls, hs⟩ := h u hu
  exact ⟨_, hs, (hu.setLines ls).ctrl⟩

theorem State.GoesIn.execTimes (h : s.GoesIn e cyc cnf T n P Q) (hi : ∀ l, DmaBody s l e cyc cnf i) {u : State}
    (hu : s.InDma e cyc cnf P T u) : ∃ v, execTimes i n u = .next v ∧ s.InDma e cyc cnf Q T v := by
  induction h generalizing u with
  | refl P => exact ⟨u, rfl, hu⟩
  | step hg _ ih =>
    obtain ⟨v, hv, hctrl⟩ := hg u hu
    obtain ⟨w, hw, hQ⟩ := ih (hu.gotoWith hv hctrl)
    exact ⟨w, (execTimes_succ (hu.exec_go hi hv)).trans hw, hQ⟩

theorem State.Goes.drives (h : s.Goes e cyc cnf T P Q) (hr : s.RunsProcedure e cyc cnf i) (p : Pick) :
    Drives [.channel e.channel p] (s.InDma e cyc cnf P T) (s.InDma e cyc cnf Q T) := .single fun u hu => by
  obtain ⟨v, hv, hctrl⟩ := h _ (hu.pick p)
  exact ⟨_, hu.act_go hr hv, ((hu.pick p).gotoWith hv hctrl).latch⟩

theorem State.GoesIn.drives (h : s.GoesIn e cyc cnf T n P Q) (hr : s.RunsProcedure e cyc cnf i) (p : Pick) :
    Drives (List.replicate n (.channel e.channel p)) (s.InDma e cyc cnf P T) (s.InDma e cyc cnf Q T) := by
  induction h with
  | refl P => exact fun u hu => ⟨u, rfl, hu⟩
  | step hg _ ih => exact (hg.drives hr p).append ih

/-- The clock moves the time alone. -/
theorem drives_clock (s : State) (e : Engine) (cyc cnf : Bool) (P : DmaPoint) (T n : Nat) :
    Drives (List.replicate n .clock) (s.InDma e cyc cnf P T) (s.InDma e cyc cnf P (T + n)) := by
  induction n generalizing T with
  | zero => exact fun u hu => ⟨u, rfl, hu⟩
  | succ n ih =>
    have hone : Drives [.clock] (s.InDma e cyc cnf P T) (s.InDma e cyc cnf P (T + 1)) := .single fun u hu => by
      refine ⟨_, rfl, State.InDma.latch ?_⟩
      obtain ⟨x, ls, p, rfl, hx⟩ := hu
      exact ⟨x, ls, p, rfl, hx⟩
    have hrest := ih (T + 1)
    rw [Nat.add_right_comm] at hrest
    exact hone.append hrest

end Run

end Sys2Proof.Machine
end

section
/-! SUPPORT. The phases of a DMA command's run: the registers it programs and the transfer it submits (R505, R507, R541),
each wait for a phase, seen or timed out (R509), the moves of its controller (R542, R543), the poll and the return (R510). -/

namespace Sys2Proof.Machine

/-! ## The waits -/

section Wait

variable {s : State} {e : Engine} {cyc cnf : Bool} {d : DmaLocals} {m : Dmac} {T : Nat} {i : Instr} {Q : DmaPoint}

theorem State.level_space (s : State) (e : Engine) : s.level e.space = decide ((s.dmac e).irqPending ≠ 0#32) := by
  cases e <;> rfl

theorem State.Goes.unmask : s.Goes e cyc cnf T ⟨.wp2, d, m⟩ ⟨.wp3, { d with t0 := T }, m⟩ :=
  .read fun u hu => ⟨_, by rw [← hu.timeMs]; rfl⟩

/-- Unmasking latches the line where the phase has already been signalled (R406, R408). -/
theorem State.InDma.line_unmask {u : State} (hu : s.InDma e cyc cnf ⟨.wp2, d, m⟩ T u) (hm : m.irqPending ≠ 0#32) :
    ((u.irqUnmask e.space).line e.space).latched = true := by
  have hlevel : u.level e.space = true := by
    rw [State.level_space, hu.ctrl]
    exact decide_eq_true hm
  rw [State.line_irqUnmask, if_pos rfl, hlevel]
  rfl

theorem State.latched_latch {s : State} {sp : Space} (h : (s.line sp).latched = true) :
    (s.latch.line sp).latched = true := by
  rw [State.line_latch, Line.latch]
  split
  · rfl
  · exact h

/-- The first move of a wait: it unmasks, and the line latches where the phase has already been signalled. -/
theorem drives_unmask (hr : s.RunsProcedure e cyc cnf i) (hm : m.irqPending ≠ 0#32) :
    Drives [.channel e.channel .wake] (s.InDma e cyc cnf ⟨.wp2, d, m⟩ T)
      (fun v => s.InDma e cyc cnf ⟨.wp3, { d with t0 := T }, m⟩ T v ∧ (v.line e.space).latched = true) :=
  .single fun u hu => by
    have hp := hu.pick .wake
    obtain ⟨v, hv⟩ : ∃ v, ({ u with pick := .wake } : State).irqUnmask e.space = v := ⟨_, rfl⟩
    have hstep : dmaStep e .wp2 d { u with pick := .wake } = .go .wp3 { d with t0 := T } v := by
      rw [← hp.timeMs, ← hv]
      rfl
    have hctrl : v.dmac e = m := hv ▸ State.InDma.ctrl_eq (hp.setLines _)
    have hline : (v.line e.space).latched = true := hv ▸ hp.line_unmask hm
    refine ⟨_, hu.act_go hr hstep, (hp.gotoWith (Q := ⟨.wp3, { d with t0 := T }, m⟩) hstep hctrl).latch,
      State.latched_latch ?_⟩
    simpa only [State.line, State.gotoWith_lines] using hline

theorem drives_latched (hr : s.RunsProcedure e cyc cnf i) :
    Drives [.channel e.channel .wake]
      (fun u => s.InDma e cyc cnf ⟨.wp3, d, m⟩ T u ∧ (u.line e.space).latched = true)
      (s.InDma e cyc cnf ⟨.wp4, d, m⟩ T) :=
  .single fun u ⟨hu, hl⟩ => by
    have hp := hu.pick .wake
    have hstep := dmaStep_woken (d := d)
      (State.irqWait_wake (s := { u with pick := .wake }) (t0 := d.t0) (T := u.cfg.dmaIrqTimeoutMs) rfl hl)
    exact ⟨_, hu.act_go hr hstep,
      (hp.gotoWith (Q := ⟨.wp4, d, m⟩) hstep (State.InDma.ctrl_eq (hp.setLines _))).latch⟩

/-- The wait wakes when its phase has already been signalled: it unmasks, latches and wakes in two moves. -/
theorem drives_wake (hr : s.RunsProcedure e cyc cnf i) (hm : m.irqPending ≠ 0#32) :
    Drives (List.replicate 2 (.channel e.channel .wake)) (s.InDma e cyc cnf ⟨.wp2, d, m⟩ T)
      (s.InDma e cyc cnf ⟨.wp4, { d with t0 := T }, m⟩ T) :=
  (drives_unmask hr hm).append (drives_latched hr)

/-- The wait times out once the clock has reached its deadline, and goes on as if the phase had been seen. -/
theorem drives_expire (hr : s.RunsProcedure e cyc cnf i) (ht : d.t0 + s.cfg.dmaIrqTimeoutMs ≤ T)
    (hnext : ∀ u, afterPhase e d u = .go Q.label Q.loc u) (hQ : Q.ctrl = m) :
    Drives [.channel e.channel .expire] (s.InDma e cyc cnf ⟨.wp3, d, m⟩ T) (s.InDma e cyc cnf Q T) :=
  .single fun u hu => by
    have hp := hu.pick .expire
    have hexp : ({ u with pick := .expire } : State).expired (d.t0 + u.cfg.dmaIrqTimeoutMs)
        (({ u with pick := .expire } : State).line e.space).latched = true := by
      have htime : u.timeMs = T := hu.timeMs
      rw [hu.cfg, State.expired, Bool.or_eq_true]
      exact .inl (decide_eq_true (htime ▸ ht))
    have hstep := (dmaStep_timedOut (State.irqWait_expire rfl hexp)).trans (hnext _)
    exact ⟨_, hu.act_go hr hstep, (hp.gotoWith hstep (hp.ctrl_eq.trans hQ.symm)).latch⟩

/-- What was pending is read, then acknowledged: exactly that (R509). -/
theorem State.GoesIn.acknowledge {w : U32} (hw : m.irqPending = w) (hbit : w.getLsbD d.phase.bit = true)
    (hnext : ∀ u, afterPhase e { d with pend := w, eotSeen := d.eotSeen || w.getLsbD 1 } u = .go Q.label Q.loc u)
    (hQ : Q.ctrl = m.write s.cfg e .irqPending w) : s.GoesIn e cyc cnf T 2 ⟨.wp4, d, m⟩ Q := by
  refine .step (Q := ⟨.wp5, { d with pend := w }, m⟩) (.read fun u hu => ⟨u.lines, ?_⟩)
    (.step (fun u hu => ⟨u.regWrite (dReg e .irqPending) w, ?_, ?_⟩) (.refl _))
  · rw [← hw, ← hu.ctrl_eq]
    rfl
  · rw [← hnext]
    exact if_pos hbit
  · rw [State.dmac_regWrite, hu.ctrl, hu.cfg, hQ]

/-- A wait for a phase that its controller has signalled: four moves, and the acknowledged bits are clear. -/
theorem drives_phase (hr : s.RunsProcedure e cyc cnf i) {w : U32} (hw : m.irqPending = w)
    (hbit : w.getLsbD d.phase.bit = true)
    (hnext : ∀ u, afterPhase e { d with t0 := T, pend := w, eotSeen := d.eotSeen || w.getLsbD 1 } u =
      .go Q.label Q.loc u)
    (hQ : Q.ctrl = m.write s.cfg e .irqPending w) :
    Drives (List.replicate 4 (.channel e.channel .wake)) (s.InDma e cyc cnf ⟨.wp2, d, m⟩ T) (s.InDma e cyc cnf Q T) := by
  have hne : m.irqPending ≠ 0#32 := by
    rintro h0
    rw [← hw, h0] at hbit
    simp at hbit
  have hack : s.GoesIn e cyc cnf T 2 ⟨.wp4, { d with t0 := T }, m⟩ Q :=
    .acknowledge (d := { d with t0 := T }) hw hbit hnext hQ
  exact Drives.append (ms := List.replicate 2 _) (drives_wake hr hne) (hack.drives hr .wake)

end Wait

/-! ## The poll and the return -/

section Return

variable {s : State} {e : Engine} {cyc cnf : Bool} {d : DmaLocals} {m : Dmac} {T : Nat} {i : Instr}

theorem State.Goes.polled (hdone : m.transferDone.getLsbD d.id.toNat = true) :
    s.Goes e cyc cnf T ⟨.pd1, d, m⟩ ⟨.back, d, m⟩ :=
  .read fun u hu => ⟨u.lines, if_pos (by
    rw [← hdone, ← hu.ctrl_eq]
    rfl)⟩

/-- `t` is the end of a run that began in `s`: the command has finished OK with `v`, and beside its channel only the
controller, the lines, the pick and the time have moved. -/
def State.DmaEnds (s : State) (e : Engine) (m : Dmac) (T : Nat) (v : U32) (t : State) : Prop :=
  ∃ x ls p, t = { (s.setDmac e m).setChan e.channel { s.chan e.channel with
      busy := false, status := Status.ok.code, res := (s.chan e.channel).res.put [v], pc := .idle, loc := x } with
    lines := ls, pick := p, timeMs := T }

theorem State.DmaEnds.latch {t : State} {v : U32} (h : s.DmaEnds e m T v t) : s.DmaEnds e m T v t.latch := by
  obtain ⟨x, ls, p, rfl⟩ := h
  exact ⟨x, _, p, rfl⟩

theorem State.InDma.finish {u : State} (h : s.InDma e cyc cnf ⟨.back, d, m⟩ T u) (v : U32) :
    s.DmaEnds e m T v (u.finish e.channel .ok [v]) := by
  obtain ⟨x, ls, p, rfl, -⟩ := h
  exact ⟨x, ls, p, by cases e <;> rfl⟩

theorem drives_back (hr : s.RunsProcedure e cyc cnf i) :
    Drives [.channel e.channel .wake] (s.InDma e cyc cnf ⟨.back, d, m⟩ T) (s.DmaEnds e m T d.size) :=
  .single fun _ hu => ⟨_, (hu.act_channel hr .wake).trans
    (congrArg (onNext State.latch) ((hu.pick .wake).exec_back hr.body rfl)), ((hu.pick .wake).finish _).latch⟩

/-- The poll that sees its transfer done, and the return. -/
theorem drives_poll (hr : s.RunsProcedure e cyc cnf i) (hdone : m.transferDone.getLsbD d.id.toNat = true) :
    Drives (List.replicate 2 (.channel e.channel .wake)) (s.InDma e cyc cnf ⟨.pd1, d, m⟩ T) (s.DmaEnds e m T d.size) :=
  ((State.Goes.polled hdone).drives hr .wake).append (drives_back hr)

end Return

/-! ## What a procedure programs (R505, R507, R541) -/

/-- A controller as the steps to the submit leave it: aborted, enabled, unmasked, and programmed with one row. -/
def Dmac.readied (m : Dmac) (c : Config) (e : Engine) (off : Nat) (size : U32) (cyc : Bool) : Dmac :=
  { m with
    irqMask := 0#32
    irqPending := m.irqPending &&& ~~~0x3#32
    control := 1#32
    flags := bitWord cyc
    destAddress := if e = .tx then m.destAddress else u32 (c.bufPhys e + off)
    destStride := if e = .tx then m.destStride else size
    srcAddress := if e = .tx then u32 (c.bufPhys e + off) else m.srcAddress
    srcStride := if e = .tx then size else m.srcStride
    xLength := size - 1#32
    yLength := 0#32
    queue := [] }

/-- The record of a transfer that a procedure submits: one row, the range of its checks. -/
def procedureRec (c : Config) (e : Engine) (off : Nat) (size id : U32) (cyc : Bool) : DmaRec where
  id := id
  addr := c.bufPhys e + off
  rows := 1
  rowLen := size.toNat
  stride := size.toNat
  cyclic := cyc
  started := false

/-- The controller with that record alone in its queue. -/
def Dmac.launched (m : Dmac) (c : Config) (e : Engine) (off : Nat) (size : U32) (cyc : Bool) : Dmac :=
  { m.readied c e off size cyc with
    queue := [procedureRec c e off size m.transferId cyc]
    transferDone := m.transferDone &&& ~~~(1#32 <<< m.transferId.toNat)
    transferId := u32 ((m.transferId.toNat + 1) % c.numTransferIds) }

theorem bitWord_and_three (b : Bool) : bitWord b &&& 0x3#32 = bitWord b := by cases b <;> rfl

theorem Dmac.readied_eq (m : Dmac) (c : Config) (e : Engine) (off : Nat) (size : U32) (cyc : Bool) :
    (((((((((m.write c e .control 0#32).write c e .control 1#32).write c e .irqPending 0x3#32).write c e .irqMask
      0#32).write c e .flags (bitWord cyc)).write c e (addrReg e) (u32 (c.bufPhys e + off))).write c e (strideReg e)
      size).write c e .xLength (size - 1#32)).write c e .yLength 0#32) = m.readied c e off size cyc := by
  have hmask : 0x3#32 &&& 0x3#32 = 0x3#32 := rfl
  cases e <;> simp [Dmac.write, Dmac.readied, addrReg, strideReg, bitWord_and_three, hmask]

theorem toNat_pred_add_one {w : U32} (h : 0 < s32 w) : (w - 1#32).toNat + 1 = w.toNat := by
  have hw := s32_eq_toNat h
  have hlt := w.isLt
  rw [BitVec.toNat_sub, BitVec.toNat_ofNat]
  omega

/-- The physical address of a range inside the buffer is one of 32 bits (R8, R202). -/
theorem toNat_u32_phys {c : Config} {e : Engine} {off : Nat} {size : U32} (hc : c.wf = true)
    (hchk : dmaChecked c e off size) : (u32 (c.bufPhys e + off)).toNat = c.bufPhys e + off := by
  have hphys := Config.wf_bufPhys hc e
  obtain ⟨hpos, hfit⟩ := hchk
  rw [u32, BitVec.toNat_ofNat]
  omega

theorem Config.wf_transferIds {c : Config} (h : c.wf = true) : 0 < c.numTransferIds ∧ c.numTransferIds ≤ 32 := by
  have h' := h
  simp only [Config.wf, List.all_cons, Bool.and_eq_true, Config.transferIdsOk, id_eq] at h'
  have hids : [1, 2, 4, 8, 16, 32].contains c.numTransferIds = true := by simp_all
  simp only [List.contains_eq_mem, List.mem_cons, List.not_mem_nil, or_false, decide_eq_true_eq] at hids
  omega

theorem Dmac.newRec_readied {m : Dmac} {c : Config} {e : Engine} {off : Nat} {size : U32} (hc : c.wf = true)
    (hchk : dmaChecked c e off size) (cyc : Bool) :
    (m.readied c e off size cyc).newRec e = procedureRec c e off size m.transferId cyc := by
  have haddr := toNat_u32_phys hc hchk
  have hlen := toNat_pred_add_one hchk.1
  have hcyc : (bitWord cyc).getLsbD 0 = cyc := by cases cyc <;> rfl
  have hrows : (0#32).toNat + 1 = 1 := rfl
  cases e <;>
    simp only [Dmac.newRec, Dmac.readied, procedureRec, haddr, hlen, hcyc, hrows, reduceCtorEq, if_true, if_false]

/-- The submit finds the controller enabled and its queue empty, so it appends (R541). -/
theorem Dmac.write_submit_readied {m : Dmac} {c : Config} {e : Engine} {off : Nat} {size : U32} (hc : c.wf = true)
    (hchk : dmaChecked c e off size) (cyc : Bool) :
    (m.readied c e off size cyc).write c e .transferSubmit 1#32 = m.launched c e off size cyc := by
  have hroom : (m.readied c e off size cyc).queue.length ≠ c.numTransferIds := (Config.wf_transferIds hc).1.ne
  rw [Dmac.write_submit (by decide), Dmac.submit_appends (show (1#32).getLsbD 0 = true by decide) hroom,
    Dmac.newRec_readied hc hchk]
  rfl

section Program

variable {s : State} {e : Engine} {cyc cnf : Bool} {d : DmaLocals} {m : Dmac} {T : Nat}

/-- A step that writes one register and keeps the locals. -/
theorem State.Goes.set (l l' : DmaLabel) (k : DReg) (v : U32)
    (h : ∀ u : State, u.cfg = s.cfg → dmaStep e l d u = .go l' d (u.regWrite (dReg e k) v)) :
    s.Goes e cyc cnf T ⟨l, d, m⟩ ⟨l', d, m.write s.cfg e k v⟩ := .write k v h

/-- The steps from the checks to the last register before the submit. -/
theorem State.GoesIn.ready (ho : s.isOpen e = true) (hchk : dmaChecked s.cfg e d.off d.size) :
    s.GoesIn e cyc cnf T 10 ⟨.d1, d, m⟩ ⟨.d11, d, m.readied s.cfg e d.off d.size (d.cyc && decide (e = .tx))⟩ := by
  have hpasses : s.Goes e cyc cnf T ⟨.d1, d, m⟩ ⟨.d2, d, m⟩ :=
    .read fun u hu => ⟨u.lines, dmaStep_passes (hu.isOpen.trans ho) hchk.1 (hu.cfg ▸ hchk.2)⟩
  rw [← Dmac.readied_eq]
  exact
    .step hpasses <|
    .step (.set .d2 .d3 .control 0#32 fun _ _ => rfl) <|
    .step (.set .d3 .d4 .control 1#32 fun _ _ => rfl) <|
    .step (.set .d4 .d5 .irqPending 0x3#32 fun _ _ => rfl) <|
    .step (.set .d5 .d6 .irqMask 0#32 fun _ _ => rfl) <|
    .step (.set .d6 .d7 .flags (bitWord (d.cyc && decide (e = .tx))) fun _ _ => rfl) <|
    .step (.set .d7 .d8 (addrReg e) (u32 (s.cfg.bufPhys e + d.off)) fun _ hu => by rw [← hu]; rfl) <|
    .step (.set .d8 .d9 (strideReg e) d.size fun _ _ => rfl) <|
    .step (.set .d9 .d10 .xLength (d.size - 1#32) fun _ _ => rfl) <|
    .step (.set .d10 .d11 .yLength 0#32 fun _ _ => rfl) <|
    .refl _

/-- The transfer's id is read before the submit. -/
theorem State.Goes.readId : s.Goes e cyc cnf T ⟨.d11, d, m⟩ ⟨.d12, { d with id := m.transferId }, m⟩ :=
  .read fun u hu => ⟨u.lines, by rw [← hu.ctrl_eq]; rfl⟩

variable {off : Nat} {size : U32}

/-- The submit of a transfer that is waited for. -/
theorem State.Goes.submit (hc : s.cfg.wf = true) (hchk : dmaChecked s.cfg e off size) {b : Bool}
    (hcyc : ¬ (e = .tx ∧ d.cyc = true)) :
    s.Goes e cyc cnf T ⟨.d12, d, m.readied s.cfg e off size b⟩
      ⟨.wp2, { d with phase := .sot, eotSeen := false }, m.launched s.cfg e off size b⟩ := by
  rw [← Dmac.write_submit_readied hc hchk]
  exact .write .transferSubmit 1#32 fun u _ => by
    rw [← waitLabel_sot e]
    exact if_neg hcyc

/-- The submit of a cyclic transfer, which is not waited for (R512). -/
theorem State.Goes.submitCyclic (hc : s.cfg.wf = true) (hchk : dmaChecked s.cfg e off size) {b : Bool}
    (hcyc : e = .tx ∧ d.cyc = true) :
    s.Goes e cyc cnf T ⟨.d12, d, m.readied s.cfg e off size b⟩ ⟨.back, d, m.launched s.cfg e off size b⟩ := by
  rw [← Dmac.write_submit_readied hc hchk]
  exact .write .transferSubmit 1#32 fun _ _ => if_pos hcyc

end Program

/-! ## The moves of the controller (R542, R543) -/

section Controller

variable {s : State} {e : Engine} {cyc cnf : Bool} {l : DmaLabel} {d : DmaLocals} {m : Dmac} {T : Nat} {r : DmaRec}
  {rest : List DmaRec}

theorem State.InDma.setDmac {u : State} (h : s.InDma e cyc cnf ⟨l, d, m⟩ T u) (m' : Dmac) :
    s.InDma e cyc cnf ⟨l, d, m'⟩ T (u.setDmac e m') := by
  obtain ⟨x, ls, p, rfl, hx⟩ := h
  exact ⟨x, ls, p, by cases e <;> rfl, hx⟩

theorem drives_start (hq : m.queue = r :: rest) (hen : m.control.getLsbD 0 = true) (hs : r.started = false) :
    Drives [.dmac e] (s.InDma e cyc cnf ⟨l, d, m⟩ T) (s.InDma e cyc cnf ⟨l, d, m.start r rest⟩ T) :=
  .single fun u hu => by
    have hctrl : u.dmac e = m := hu.ctrl
    subst hctrl
    refine ⟨_, rfl, State.InDma.latch ?_⟩
    rw [dmacStep_not_started hq hen hs]
    exact hu.setDmac _

end Controller

end Sys2Proof.Machine
end

section
/-! SUPPORT. The runs of DMA.WRITE and DMA.READ put together (R505 to R510, R512, R542, R543): what the controller carries
through a run, the completion of the transfer on either engine, and the schedules up to the return. -/

namespace Sys2Proof.Machine

/-! ## What the controller carries -/

/-- The controller carries one transfer that is not done yet, with the pending bits `p`. -/
structure Dmac.Carries (m : Dmac) (r : DmaRec) (p : U32) : Prop where
  unmasked : m.irqMask = 0#32
  enabled : m.control.getLsbD 0 = true
  queue : m.queue = [r]
  pending : m.irqPending = p
  notDone : m.transferDone.getLsbD r.id.toNat = false

/-- The controller has completed the transfer with the id, and carries no other. -/
structure Dmac.Carried (m : Dmac) (id p : U32) : Prop where
  queue : m.queue = []
  pending : m.irqPending = p
  done : m.transferDone.getLsbD id.toNat = true

/-- A register of two bits has no bit left when both are discarded. -/
theorem discard_pending {w : U32} (h : w.toNat < 4) : w &&& ~~~0x3#32 = 0#32 := by
  apply BitVec.eq_of_toNat_eq
  apply Nat.eq_of_testBit_eq
  intro i
  rw [BitVec.testBit_toNat, BitVec.getLsbD_and, ← BitVec.testBit_toNat]
  by_cases hi : i < 2
  · interval_cases i <;> simp
  · rw [Nat.testBit_lt_two_pow (h.trans_le (Nat.pow_le_pow_right Nat.two_pos (Nat.le_of_not_lt hi)))]
    simp

theorem getLsbD_cleared (w : U32) (i : Nat) : (w &&& ~~~(1#32 <<< i)).getLsbD i = false := by
  by_cases hi : i < 32
  · simp [hi]
  · simp [BitVec.getLsbD_of_ge _ i (Nat.le_of_not_lt hi)]

theorem getLsbD_set (w : U32) {i : Nat} (hi : i < 32) : (w ||| (1#32 <<< i)).getLsbD i = true := by simp [hi]

namespace Dmac.Carries

variable {m : Dmac} {c : Config} {e : Engine} {r : DmaRec} {p : U32}

theorem launched (hm : m.irqPending.toNat < 4) (c : Config) (e : Engine) (off : Nat) (size : U32) (cyc : Bool) :
    (m.launched c e off size cyc).Carries (procedureRec c e off size m.transferId cyc) 0#32 where
  unmasked := rfl
  enabled := (rfl : (1#32 : U32).getLsbD 0 = true)
  queue := rfl
  pending := discard_pending hm
  notDone := getLsbD_cleared _ _

theorem start (h : m.Carries r p) : (m.start r []).Carries { r with started := true } (p ||| 1#32) := by
  rw [Dmac.start_eq]
  exact
    { unmasked := h.unmasked
      enabled := h.enabled
      queue := rfl
      pending := by
        dsimp only
        rw [h.unmasked, h.pending]
        rfl
      notDone := h.notDone }

theorem acknowledge (h : m.Carries r p) (c : Config) (e : Engine) (w : U32) :
    (m.write c e .irqPending w).Carries r (p &&& ~~~(w &&& 0x3#32)) where
  unmasked := h.unmasked
  enabled := h.enabled
  queue := h.queue
  pending := congrArg (· &&& ~~~(w &&& 0x3#32)) h.pending
  notDone := h.notDone

theorem complete (h : m.Carries r p) (hcyc : r.cyclic = false) (hid : r.id.toNat < 32) :
    (m.complete r []).Carried r.id (p ||| 2#32) := by
  rw [Dmac.complete_eq]
  exact
    { queue := by
        dsimp only
        rw [hcyc]
        rfl
      pending := by
        dsimp only
        rw [h.unmasked, h.pending]
        rfl
      done := getLsbD_set _ hid }

end Dmac.Carries

theorem Dmac.Carried.acknowledge {m : Dmac} {id p : U32} (h : m.Carried id p) (c : Config) (e : Engine) (w : U32) :
    (m.write c e .irqPending w).Carried id (p &&& ~~~(w &&& 0x3#32)) where
  queue := h.queue
  pending := congrArg (· &&& ~~~(w &&& 0x3#32)) h.pending
  done := h.done

/-! ## The way to the submit -/

theorem State.GoesIn.trans {s : State} {e : Engine} {cyc cnf : Bool} {T n k : Nat} {P Q R : DmaPoint}
    (h : s.GoesIn e cyc cnf T n P Q) (h' : s.GoesIn e cyc cnf T k Q R) : s.GoesIn e cyc cnf T (n + k) P R := by
  induction h with
  | refl P => simpa using h'
  | step hg _ ih =>
    rw [Nat.add_right_comm]
    exact .step hg (ih h')

/-- The locals at the first wait: the id is known, and no phase has been seen. -/
def DmaLocals.launched (d : DmaLocals) (id : U32) : DmaLocals := { d with id := id, phase := .sot, eotSeen := false }

section Launch

variable {s : State} {e : Engine} {cyc cnf : Bool} {d : DmaLocals} {m : Dmac} {T : Nat}
  (hc : s.cfg.wf = true) (ho : s.isOpen e = true) (hchk : dmaChecked s.cfg e d.off d.size)
include hc ho hchk

theorem State.GoesIn.launch (hcyc : d.cyc = false) : s.GoesIn e cyc cnf T 12 ⟨.d1, d, m⟩
    ⟨.wp2, d.launched m.transferId, m.launched s.cfg e d.off d.size false⟩ := by
  have hready : s.GoesIn e cyc cnf T 10 _ _ := .ready (m := m) ho hchk
  rw [hcyc] at hready
  exact hready.trans (.step .readId (.step
    (.submit (d := { d with id := m.transferId }) hc hchk fun h => Bool.false_ne_true (hcyc.symm.trans h.2)) (.refl _)))

theorem State.GoesIn.launchCyclic (he : e = .tx) (hcyc : d.cyc = true) : s.GoesIn e cyc cnf T 12 ⟨.d1, d, m⟩
    ⟨.back, { d with id := m.transferId }, m.launched s.cfg e d.off d.size true⟩ := by
  have hready : s.GoesIn e cyc cnf T 10 _ _ := .ready (m := m) ho hchk
  rw [hcyc, decide_eq_true he] at hready
  exact hready.trans (.step .readId (.step
    (.submitCyclic (d := { d with id := m.transferId }) hc hchk ⟨he, hcyc⟩) (.refl _)))

end Launch

/-! ## The end of a run -/

namespace State.DmaEnds

variable {s t : State} {e : Engine} {m : Dmac} {T : Nat} {v : U32}

theorem ctrl (h : s.DmaEnds e m T v t) : t.dmac e = m := by
  obtain ⟨x, ls, p, rfl⟩ := h
  cases e <;> rfl

theorem finished (h : s.DmaEnds e m T v t) : (t.chan e.channel).busy = false ∧ (t.chan e.channel).status = 0#32 ∧
    (t.chan e.channel).res.get 0 = v ∧ (t.chan e.channel).pc = .idle := by
  obtain ⟨x, ls, p, rfl⟩ := h
  cases e <;> exact ⟨rfl, rfl, rfl, rfl⟩

end State.DmaEnds

/-! ## A cyclic write (R512) -/

theorem execTimes_pick {i : Instr} {k : Nat} {s t : State} (h : execTimes i k s = .next t) : t.pick = s.pick := by
  induction k generalizing s with
  | zero =>
    cases h
    rfl
  | succ k ih =>
    cases hs : exec i s with
    | next u =>
      rw [execTimes_succ hs] at h
      rw [ih h, exec_common_frame hs]
    | fault r => simp [execTimes, hs] at h
    | refused r => simp [execTimes, hs] at h

/-- Settles O22: twelve steps to the submit, and the return. -/
theorem dmaWriteCyclicReturnsAtOnce : Obligations.DmaWriteCyclicReturnsAtOnce := by
  unfold Obligations.DmaWriteCyclicReturnsAtOnce
  intro s cnf hc hpc ho hpos hfit
  have hbody : ∀ l, DmaBody s l .tx true cnf (.dmaWrite .tx true cnf) := fun _ => .write true cnf
  have hlaunch := State.GoesIn.launchCyclic (e := .tx) (cyc := true) (cnf := cnf)
    (d := dmaArgs s.chTx.opd true cnf s.chTx.loc.dma) (m := s.dtx) (T := s.timeMs) hc ho ⟨hpos, hfit⟩ rfl rfl
  obtain ⟨u, hu, hback⟩ := hlaunch.execTimes hbody (.first hpc)
  have hrun : execTimes (.dmaWrite .tx true cnf) 13 s = .next (u.finish .tx .ok [s.chTx.opd.a1]) :=
    (execTimes_add (k := 1) hu).trans (execTimes_succ (hback.exec_back hbody rfl))
  have hend := hback.finish s.chTx.opd.a1
  have hpick := execTimes_pick hrun
  obtain ⟨hbusy, hstatus, hres, hidle⟩ := hend.finished
  refine ⟨_, procedureRec s.cfg .tx s.chTx.opd.a0.toNat s.chTx.opd.a1 s.dtx.transferId true, hrun, ?_, hbusy, hstatus,
    hres, hidle, hend.ctrl, rfl, rfl, rfl, rfl, rfl, rfl⟩
  obtain ⟨x, ls, p, hframe⟩ := hend
  change u.finish .tx .ok [s.chTx.opd.a1] = _ at hframe
  rw [hframe] at hpick ⊢
  subst hpick
  rfl

end Sys2Proof.Machine
end

section
/-! SUPPORT. The schedules of DMA.WRITE and DMA.READ: what both engines share up to the wait for EOT, the completion on each
engine, and the rest up to the return (R505 to R510, R542, R543, R760, R851). -/

namespace Sys2Proof.Machine

/-! ## Up to the wait for EOT -/

/-- Past its wait for SOT a procedure that is to be confirmed waits for EOT (R505, R507). -/
theorem afterPhase_onward {e : Engine} {d : DmaLocals} (hp : d.phase = .sot) (hcnf : ¬ (e = .tx ∧ d.cnf = false))
    (hs : d.eotSeen = false) (s : State) :
    afterPhase e d s = .go (waitLabel e .eot) { d with phase := .eot } s := by
  rw [afterPhase_sot hp, if_neg hcnf, if_neg (by simp [hs]), waitLabel_eot]

/-- A write without confirmation returns past its wait for SOT (R505). -/
theorem afterPhase_unconfirmed {d : DmaLocals} (hp : d.phase = .sot) (hcnf : d.cnf = false) (s : State) :
    afterPhase .tx d s = .go .back d s := by
  rw [afterPhase_sot hp, if_pos ⟨rfl, hcnf⟩]

/-- The record that the run submits, as its controller has started it. -/
def startedRec (c : Config) (e : Engine) (off : Nat) (size id : U32) : DmaRec :=
  { procedureRec c e off size id false with started := true }

/-- The record lies in the window, as the checks made sure (R202, R504). -/
theorem startedRec_inside {c : Config} {e : Engine} {off : Nat} {size : U32} (h : dmaChecked c e off size) (id : U32) :
    (startedRec c e off size id).inside c e = true := by
  obtain ⟨hpos, hfit⟩ := h
  have hs := s32_eq_toNat hpos
  refine DmaRec.inside_iff.2 fun k hk => ?_
  have hk0 : k = 0 := Nat.lt_one_iff.1 hk
  subst hk0
  simp only [startedRec, procedureRec]
  omega

/-- The procedure stands at a point whose controller carries `r`. -/
def State.CarryingAt (s : State) (e : Engine) (cyc cnf : Bool) (l : DmaLabel) (d : DmaLocals) (r : DmaRec) (p : U32)
    (T : Nat) (u : State) : Prop :=
  ∃ m : Dmac, m.Carries r p ∧ s.InDma e cyc cnf ⟨l, d, m⟩ T u

/-- The same once the transfer is done. -/
def State.CarriedAt (s : State) (e : Engine) (cyc cnf : Bool) (l : DmaLabel) (d : DmaLocals) (p : U32) (T : Nat)
    (u : State) : Prop :=
  ∃ m : Dmac, m.Carried d.id p ∧ s.InDma e cyc cnf ⟨l, d, m⟩ T u

section Shared

variable {s : State} {e : Engine} {cnf : Bool} {d : DmaLocals} {l : DmaLabel} {r : DmaRec} {p : U32} {T : Nat} {i : Instr}
  (hr : s.RunsProcedure e false cnf i)

/-- A schedule for every controller that carries the record. -/
theorem drives_carrying {ms : List Move} {B : State → Prop}
    (h : ∀ m : Dmac, m.Carries r p → Drives ms (s.InDma e false cnf ⟨l, d, m⟩ T) B) :
    Drives ms (s.CarryingAt e false cnf l d r p T) B := fun u ⟨m, hm, hu⟩ => h m hm u hu

theorem drives_startCarried (hs : r.started = false) :
    Drives [.dmac e] (s.CarryingAt e false cnf l d r p T)
      (s.CarryingAt e false cnf l d { r with started := true } (p ||| 1#32) T) :=
  drives_carrying fun _ hm u hu => by
    obtain ⟨v, hv, hB⟩ := drives_start hm.queue hm.enabled hs u hu
    exact ⟨v, hv, _, hm.start, hB⟩

theorem drives_waits (T n : Nat) : Drives (List.replicate n .clock) (s.CarryingAt e false cnf l d r p T)
    (s.CarryingAt e false cnf l d r p (T + n)) :=
  drives_carrying fun _ hm u hu => by
    obtain ⟨v, hv, hB⟩ := drives_clock s e false cnf _ T n u hu
    exact ⟨v, hv, _, hm, hB⟩

include hr

theorem drives_launch (hc : s.cfg.wf = true) (ho : s.isOpen e = true) (hm : (s.dmac e).irqPending.toNat < 4)
    (hchk : dmaChecked s.cfg e d.off d.size) (hcyc : d.cyc = false) :
    Drives (List.replicate 12 (.channel e.channel .wake)) (s.InDma e false cnf ⟨.d1, d, s.dmac e⟩ T)
      (s.CarryingAt e false cnf .wp2 (d.launched (s.dmac e).transferId)
        (procedureRec s.cfg e d.off d.size (s.dmac e).transferId false) 0#32 T) := fun u hu => by
  obtain ⟨v, hv, hB⟩ := (State.GoesIn.launch (m := s.dmac e) hc ho hchk hcyc).drives hr .wake u hu
  exact ⟨v, hv, _, .launched hm .., hB⟩

theorem drives_goes {l' : DmaLabel} {d' : DmaLocals} (q : Pick)
    (hg : ∀ m : Dmac, m.Carries r p → s.Goes e false cnf T ⟨l, d, m⟩ ⟨l', d', m⟩) :
    Drives [.channel e.channel q] (s.CarryingAt e false cnf l d r p T) (s.CarryingAt e false cnf l' d' r p T) :=
  drives_carrying fun m hm u hu => by
    obtain ⟨v, hv, hB⟩ := (hg m hm).drives hr q u hu
    exact ⟨v, hv, m, hm, hB⟩

/-- A wait that its controller has signalled SOT for, up to the label that follows. -/
theorem drives_sotSeen {l' : DmaLabel} {d' : DmaLocals} (hp : d.phase = .sot)
    (hnext : ∀ u, afterPhase e { d with t0 := T, pend := 1#32, eotSeen := d.eotSeen || false } u = .go l' d' u) :
    Drives (List.replicate 4 (.channel e.channel .wake)) (s.CarryingAt e false cnf .wp2 d r 1#32 T)
      (s.CarryingAt e false cnf l' d' r 0#32 T) :=
  drives_carrying fun m hm u hu => by
    have hbit : (1#32).getLsbD d.phase.bit = true := by rw [hp]; rfl
    obtain ⟨v, hv, hB⟩ := drives_phase (Q := ⟨l', d', m.write s.cfg e .irqPending 1#32⟩) hr hm.pending hbit hnext rfl u hu
    exact ⟨v, hv, _, hm.acknowledge s.cfg e 1#32, hB⟩

/-- A wait that nothing is signalled for: the unmasking, the time, and the timeout, up to the label that follows. -/
theorem drives_timeout {l' : DmaLabel} {d' : DmaLocals} (hnext : ∀ u, afterPhase e { d with t0 := T } u = .go l' d' u) :
    Drives ([.channel e.channel .wake] ++ List.replicate s.cfg.dmaIrqTimeoutMs .clock ++ [.channel e.channel .expire])
      (s.CarryingAt e false cnf .wp2 d r p T)
      (s.CarryingAt e false cnf l' d' r p (T + s.cfg.dmaIrqTimeoutMs)) := by
  refine ((drives_goes hr .wake fun m _ => .unmask).append (drives_waits T _)).append (drives_carrying fun m hm u hu => ?_)
  obtain ⟨v, hv, hB⟩ := drives_expire (Q := ⟨l', d', m⟩) hr (Nat.le_refl _) hnext rfl u hu
  exact ⟨v, hv, m, hm, hB⟩

/-- A wait whose controller has completed the transfer and signalled EOT alone. -/
theorem drives_eotSeen (hp : d.phase = .eot) :
    Drives (List.replicate 4 (.channel e.channel .wake)) (s.CarriedAt e false cnf .wp2 d 2#32 T)
      (s.CarriedAt e false cnf .pd1 { d with t0 := T, pend := 2#32, eotSeen := d.eotSeen || true } 0#32 T) :=
  fun u ⟨m, hm, hu⟩ => by
    have hbit : (2#32).getLsbD d.phase.bit = true := by rw [hp]; rfl
    obtain ⟨v, hv, hB⟩ := drives_phase
      (Q := ⟨.pd1, { d with t0 := T, pend := 2#32, eotSeen := d.eotSeen || true }, m.write s.cfg e .irqPending 2#32⟩)
      hr hm.pending hbit
      (afterPhase_eot (d := { d with t0 := T, pend := 2#32, eotSeen := d.eotSeen || true }) hp e) rfl u hu
    exact ⟨v, hv, _, hm.acknowledge s.cfg e 2#32, hB⟩

section ToEot

variable (hc : s.cfg.wf = true) (ho : s.isOpen e = true) (hm : (s.dmac e).irqPending.toNat < 4)
  (hchk : dmaChecked s.cfg e d.off d.size) (hcyc : d.cyc = false)
include hc ho hm hchk hcyc

/-- The run up to the start of the transfer. -/
theorem drives_toStart :
    Drives (List.replicate 12 (.channel e.channel .wake) ++ [.dmac e]) (s.InDma e false cnf ⟨.d1, d, s.dmac e⟩ T)
      (s.CarryingAt e false cnf .wp2 (d.launched (s.dmac e).transferId)
        (startedRec s.cfg e d.off d.size (s.dmac e).transferId) 1#32 T) :=
  (drives_launch hr hc ho hm hchk hcyc).append (drives_startCarried rfl)

variable (hcnf : ¬ (e = .tx ∧ d.cnf = false))
include hcnf

/-- The run up to the wait for EOT, the wait for SOT seeing its phase. -/
theorem drives_toEot :
    Drives (List.replicate 12 (.channel e.channel .wake) ++ [.dmac e] ++ List.replicate 4 (.channel e.channel .wake))
      (s.InDma e false cnf ⟨.d1, d, s.dmac e⟩ T)
      (s.CarryingAt e false cnf (waitLabel e .eot)
        { d.launched (s.dmac e).transferId with t0 := T, pend := 1#32, phase := .eot }
        (startedRec s.cfg e d.off d.size (s.dmac e).transferId) 0#32 T) :=
  (drives_toStart hr hc ho hm hchk hcyc).append (drives_sotSeen hr rfl (afterPhase_onward rfl hcnf rfl))

/-- The run up to the wait for EOT, the wait for SOT timing out. -/
theorem drives_toEotTimeout :
    Drives (List.replicate 12 (.channel e.channel .wake) ++
        ([.channel e.channel .wake] ++ List.replicate s.cfg.dmaIrqTimeoutMs .clock ++ [.channel e.channel .expire]))
      (s.InDma e false cnf ⟨.d1, d, s.dmac e⟩ T)
      (s.CarryingAt e false cnf (waitLabel e .eot)
        { d.launched (s.dmac e).transferId with t0 := T, phase := .eot }
        (procedureRec s.cfg e d.off d.size (s.dmac e).transferId false) 0#32 (T + s.cfg.dmaIrqTimeoutMs)) :=
  (drives_launch hr hc ho hm hchk hcyc).append (drives_timeout hr (afterPhase_onward rfl hcnf rfl))

end ToEot

/-- The wait for EOT timing out; then the transfer starts after all. -/
theorem drives_lateStart (hp : d.phase = .eot) (hs : r.started = false) :
    Drives ([.channel e.channel .wake] ++ List.replicate s.cfg.dmaIrqTimeoutMs .clock ++ [.channel e.channel .expire] ++
        [.dmac e])
      (s.CarryingAt e false cnf .wp2 d r p T)
      (s.CarryingAt e false cnf .pd1 { d with t0 := T } { r with started := true } (p ||| 1#32)
        (T + s.cfg.dmaIrqTimeoutMs)) :=
  (drives_timeout hr (afterPhase_eot (d := { d with t0 := T }) hp e)).append (drives_startCarried hs)

/-- The poll of the completed transfer, and the return. -/
theorem drives_polled : Drives (List.replicate 2 (.channel e.channel .wake)) (s.CarriedAt e false cnf .pd1 d p T)
    (fun t => ∃ m : Dmac, m.Carried d.id p ∧ s.DmaEnds e m T d.size t) := fun u ⟨m, hm, hu⟩ => by
  obtain ⟨v, hv, hB⟩ := drives_poll hr hm.done u hu
  exact ⟨v, hv, m, hm, hB⟩

/-- The return while the transfer is still under way. -/
theorem drives_unpolled : Drives [.channel e.channel .wake] (s.CarryingAt e false cnf .back d r p T)
    (fun t => ∃ m : Dmac, m.Carries r p ∧ s.DmaEnds e m T d.size t) := fun u ⟨m, hm, hu⟩ => by
  obtain ⟨v, hv, hB⟩ := drives_back hr u hu
  exact ⟨v, hv, m, hm, hB⟩

end Shared

/-! ## DMA.WRITE -/

section Write

variable {s : State} {cnf : Bool} {d : DmaLocals} {l : DmaLabel} {r : DmaRec} {p : U32} {T : Nat}

/-- The transfer's bytes reach the TX IP core as one event (R543, R760). -/
theorem drives_completeTx (hs : r.started = true) (hcyc : r.cyclic = false) (hin : r.inside s.cfg .tx = true)
    (hid : r.id = d.id) (hid32 : r.id.toNat < 32) (hm : s.mtx.reset.getLsbD 0 = false) :
    Drives [.dmac .tx] (s.CarryingAt .tx false cnf l d r p T)
      ((s.logEvent (.txStream (s.gather r) false)).CarriedAt .tx false cnf l d (p ||| 2#32) T) :=
  drives_carrying fun m hcar => .single fun u hu => by
    obtain ⟨x, ls, q, rfl, hx⟩ := hu
    have hstep : dmacStep .tx (s.dmaAt .tx l x m ls q T) = completeTx r [] (s.dmaAt .tx l x m ls q T) :=
      dmacStep_completeTx hcar.queue hcar.enabled hs hin hm
    refine ⟨_, rfl, m.complete r [], hid ▸ hcar.complete hcyc hid32, State.InDma.latch ?_⟩
    rw [hstep, completeTx, hcyc]
    exact ⟨x, ls, q, rfl, hx⟩

/-- The bytes of the run's transfer are those of its range. -/
theorem gather_startedRec (s : State) (off : Nat) (size id : U32) :
    s.gather (startedRec s.cfg .tx off size id) = s.readMem (.buf .tx) off size.toNat := by
  have haddr : s.cfg.bufPhys .tx + off - s.cfg.bufPhysTx = off := Nat.add_sub_cancel_left _ _
  rw [State.gather_eq]
  simp only [startedRec, procedureRec, List.range_one, List.flatMap_singleton, Nat.zero_mul, Nat.add_zero, haddr]

/-- The command's end with its transfer delivered: the TX IP core has the bytes of the range, as one event. -/
def State.WriteDelivered (s : State) (p : U32) (T : Nat) (t : State) : Prop :=
  ∃ m : Dmac, m.Carried s.dtx.transferId p ∧
    (s.logEvent (.txStream (s.readMem (.buf .tx) s.chTx.opd.a0.toNat s.chTx.opd.a1.toNat) false)).DmaEnds .tx m T
      s.chTx.opd.a1 t

/-- The command's end with its transfer still queued. -/
def State.WriteQueued (s : State) (started : Bool) (T : Nat) (t : State) : Prop :=
  ∃ m : Dmac, m.Carries { procedureRec s.cfg .tx s.chTx.opd.a0.toNat s.chTx.opd.a1 s.dtx.transferId false with
      started := started } 0#32 ∧ s.DmaEnds .tx m T s.chTx.opd.a1 t

theorem State.DmaEnds.finished_tx {s t : State} {m : Dmac} {T : Nat} {v : U32} (h : s.DmaEnds .tx m T v t) :
    t.chTx.busy = false ∧ t.chTx.status = 0#32 ∧ t.chTx.res.get 0 = v ∧ t.chTx.pc = .idle := h.finished

/-- What is seen of that end: the command's results, the event, the registers of the controller, and nothing else. -/
theorem State.WriteDelivered.observed {s t : State} {p : U32} {T : Nat} (h : s.WriteDelivered p T t) :
    t = { s with chTx := t.chTx, dtx := t.dtx, lines := t.lines, log := t.log, pick := t.pick, timeMs := T } ∧
      (t.chTx.busy = false ∧ t.chTx.status = 0#32 ∧ t.chTx.res.get 0 = s.chTx.opd.a1 ∧ t.chTx.pc = .idle) ∧
      (t.log = s.log ++ [.txStream (s.readMem (.buf .tx) s.chTx.opd.a0.toNat s.chTx.opd.a1.toNat) false] ∧
        t.dtx.queue = [] ∧ t.dtx.transferDone.getLsbD s.dtx.transferId.toNat = true) ∧
      t.dtx.irqPending = p := by
  obtain ⟨m, hm, hend⟩ := h
  refine ⟨?_, hend.finished_tx, ?_⟩
  all_goals obtain ⟨x, ls, q, rfl⟩ := hend
  · rfl
  · exact ⟨⟨rfl, hm.queue, hm.done⟩, hm.pending⟩

theorem State.WriteQueued.observed {s t : State} {started : Bool} {T : Nat} (h : s.WriteQueued started T t) :
    t = { s with chTx := t.chTx, dtx := t.dtx, lines := t.lines, pick := t.pick, timeMs := T } ∧
      (t.chTx.busy = false ∧ t.chTx.status = 0#32 ∧ t.chTx.res.get 0 = s.chTx.opd.a1 ∧ t.chTx.pc = .idle) ∧
      (t.dtx.transferDone.getLsbD s.dtx.transferId.toNat = false ∧
        t.dtx.queue = [{ id := s.dtx.transferId, addr := s.cfg.bufPhysTx + s.chTx.opd.a0.toNat, rows := 1
                         rowLen := s.chTx.opd.a1.toNat, stride := s.chTx.opd.a1.toNat, cyclic := false
                         started := started }]) ∧
      t.dtx.irqPending = 0#32 := by
  obtain ⟨m, hm, hend⟩ := h
  refine ⟨?_, hend.finished_tx, ?_⟩
  all_goals obtain ⟨x, ls, q, rfl⟩ := hend
  · rfl
  · exact ⟨⟨hm.notDone, hm.queue⟩, hm.pending⟩

end Write

/-- The completion of the run's transfer, at any point of the procedure. -/
theorem drives_delivery {s : State} {cnf : Bool} (hc : s.cfg.wf = true) (hl : s.dtx.Legal s.cfg)
    (hchk : dmaChecked s.cfg .tx s.chTx.opd.a0.toNat s.chTx.opd.a1) (hmtx : s.mtx.reset.getLsbD 0 = false)
    {l : DmaLabel} {d : DmaLocals} {p : U32} {T : Nat} (hid : d.id = s.dtx.transferId) :
    Drives [.dmac .tx]
      (s.CarryingAt .tx false cnf l d
        (startedRec s.cfg .tx s.chTx.opd.a0.toNat s.chTx.opd.a1 s.dtx.transferId) p T)
      ((s.logEvent (.txStream (s.readMem (.buf .tx) s.chTx.opd.a0.toNat s.chTx.opd.a1.toNat) false)).CarriedAt .tx false
        cnf l d (p ||| 2#32) T) := by
  have hid32 : s.dtx.transferId.toNat < 32 := hl.transferId.trans_le (Config.wf_transferIds hc).2
  rw [← gather_startedRec s s.chTx.opd.a0.toNat s.chTx.opd.a1 s.dtx.transferId]
  exact drives_completeTx rfl rfl (startedRec_inside hchk _) hid.symm hid32 hmtx

/-- The schedules, cut where the run's parts end. -/
theorem dmaWriteSchedule_eq : dmaWriteSchedule =
    List.replicate 12 (.channel .tx .wake) ++ [.dmac .tx] ++ List.replicate 4 (.channel .tx .wake) ++ [.dmac .tx] ++
      List.replicate 4 (.channel .tx .wake) ++ List.replicate 2 (.channel .tx .wake) := rfl

theorem dmaWriteTimeoutSchedule_eq (T : Nat) : dmaWriteTimeoutSchedule T =
    List.replicate 12 (.channel .tx .wake) ++
        ([.channel .tx .wake] ++ List.replicate T .clock ++ [.channel .tx .expire]) ++
      ([.channel .tx .wake] ++ List.replicate T .clock ++ [.channel .tx .expire] ++ [.dmac .tx]) ++ [.dmac .tx] ++
      List.replicate 2 (.channel .tx .wake) := by
  simp [dmaWriteTimeoutSchedule, List.replicate_succ]

theorem dmaWriteUnconfirmedSchedule_eq : dmaWriteUnconfirmedSchedule =
    List.replicate 12 (.channel .tx .wake) ++ [.dmac .tx] ++ List.replicate 4 (.channel .tx .wake) ++
      [.channel .tx .wake] := rfl

theorem dmaWriteUnconfirmedTimeoutSchedule_eq (T : Nat) : dmaWriteUnconfirmedTimeoutSchedule T =
    List.replicate 12 (.channel .tx .wake) ++
        ([.channel .tx .wake] ++ List.replicate T .clock ++ [.channel .tx .expire]) ++ [.channel .tx .wake] := by
  simp [dmaWriteUnconfirmedTimeoutSchedule, List.replicate_succ]

section WriteRun

variable {s : State} {cnf : Bool} (hc : s.cfg.wf = true) (hl : s.dtx.Legal s.cfg)
  (hr : s.RunsProcedure .tx false cnf (.dmaWrite .tx false cnf)) (hpc : s.chTx.pc = .dma .d1) (ho : s.openTx = true)
  (hchk : dmaChecked s.cfg .tx s.chTx.opd.a0.toNat s.chTx.opd.a1)
include hc hl hr hpc ho hchk

section Confirmed

variable (hmtx : s.mtx.reset.getLsbD 0 = false) (hcnf : cnf = true)
include hmtx hcnf

theorem drives_dmaWriteSchedule : Drives dmaWriteSchedule (· = s) (s.WriteDelivered 0#32 s.timeMs) := by
  rintro u rfl
  have htoEot := drives_toEot (T := u.timeMs) (d := dmaArgs u.chTx.opd false cnf u.chTx.loc.dma) hr hc ho hl.irqPending
    hchk rfl (by simp [dmaArgs, hcnf])
  have hr' : ∀ ev, (u.logEvent ev).RunsProcedure .tx false cnf (.dmaWrite .tx false cnf) := fun _ =>
    ⟨fun _ => .write false cnf, hr.busy, hr.decodes⟩
  have hend := ((htoEot.append (drives_delivery hc hl hchk hmtx rfl)).append (drives_eotSeen (hr' _) rfl)).append
    (drives_polled (hr' _))
  rw [dmaWriteSchedule_eq]
  exact hend u (.first hpc)

theorem drives_dmaWriteTimeoutSchedule : Drives (dmaWriteTimeoutSchedule s.cfg.dmaIrqTimeoutMs) (· = s)
    (s.WriteDelivered 3#32 (s.timeMs + s.cfg.dmaIrqTimeoutMs + s.cfg.dmaIrqTimeoutMs)) := by
  rintro u rfl
  have htoEot := drives_toEotTimeout (T := u.timeMs) (d := dmaArgs u.chTx.opd false cnf u.chTx.loc.dma) hr hc ho
    hl.irqPending hchk rfl (by simp [dmaArgs, hcnf])
  have hend := ((htoEot.append (drives_lateStart hr rfl rfl)).append (drives_delivery hc hl hchk hmtx rfl)).append
    (drives_polled ⟨fun _ => .write false cnf, hr.busy, hr.decodes⟩)
  rw [dmaWriteTimeoutSchedule_eq]
  exact hend u (.first hpc)

end Confirmed

section Unconfirmed

variable (hcnf : cnf = false)
include hcnf

theorem drives_dmaWriteUnconfirmedSchedule :
    Drives dmaWriteUnconfirmedSchedule (· = s) (s.WriteQueued true s.timeMs) := by
  rintro u rfl
  have hstart := drives_toStart (T := u.timeMs) (d := dmaArgs u.chTx.opd false cnf u.chTx.loc.dma) hr hc ho
    hl.irqPending hchk rfl
  have hend := (hstart.append (drives_sotSeen hr rfl (afterPhase_unconfirmed rfl hcnf))).append (drives_unpolled hr)
  rw [dmaWriteUnconfirmedSchedule_eq]
  exact hend u (.first hpc)

theorem drives_dmaWriteUnconfirmedTimeoutSchedule :
    Drives (dmaWriteUnconfirmedTimeoutSchedule s.cfg.dmaIrqTimeoutMs) (· = s)
      (s.WriteQueued false (s.timeMs + s.cfg.dmaIrqTimeoutMs)) := by
  rintro u rfl
  have hlaunch := drives_launch (T := u.timeMs) (d := dmaArgs u.chTx.opd false cnf u.chTx.loc.dma) hr hc ho
    hl.irqPending hchk rfl
  have hend := (hlaunch.append (drives_timeout hr (afterPhase_unconfirmed rfl hcnf))).append (drives_unpolled hr)
  rw [dmaWriteUnconfirmedTimeoutSchedule_eq]
  exact hend u (.first hpc)

end Unconfirmed

end WriteRun

/-- Settles O23: each schedule leads through the parts of the run to its end. -/
theorem dmaWriteConfirmedDelivers : Obligations.DmaWriteConfirmedDelivers := by
  unfold Obligations.DmaWriteConfirmedDelivers
  intro s cnf hc hl hbusy hdec hpc ho hmtx hpos hfit
  have hr : s.RunsProcedure .tx false cnf (.dmaWrite .tx false cnf) := ⟨fun _ => .write false cnf, hbusy, hdec⟩
  have hchk : dmaChecked s.cfg .tx s.chTx.opd.a0.toNat s.chTx.opd.a1 := ⟨hpos, hfit⟩
  refine ⟨fun hcnf => ⟨?_, ?_⟩, fun hcnf => ⟨?_, ?_⟩⟩
  · obtain ⟨t, ht, hend⟩ := drives_dmaWriteSchedule hc hl hr hpc ho hchk hmtx hcnf s rfl
    exact ⟨t, ht, hend.observed⟩
  · obtain ⟨t, ht, hend⟩ := drives_dmaWriteTimeoutSchedule hc hl hr hpc ho hchk hmtx hcnf s rfl
    exact ⟨t, ht, hend.observed⟩
  · obtain ⟨t, ht, hend⟩ := drives_dmaWriteUnconfirmedSchedule hc hl hr hpc ho hchk hcnf s rfl
    exact ⟨t, ht, hend.observed⟩
  · obtain ⟨t, ht, hend⟩ := drives_dmaWriteUnconfirmedTimeoutSchedule hc hl hr hpc ho hchk hcnf s rfl
    exact ⟨t, ht, hend.observed⟩

end Sys2Proof.Machine
end

section
/-! SUPPORT. The run of DMA.READ: the completion that moves the head frame into the buffer, and the two schedules (R507 to
R510, R543, R851). -/

namespace Sys2Proof.Machine

/-! ## The frame in the buffer -/

/-- The state `s` with the head frame taken and the buffer as the completion has left it. -/
def State.received (s : State) (q : List (U32 × List Byte)) (b : Memory) (n : Nat) : State :=
  { s with mrx := { s.mrx with rxq := q }, bufRx := b, draws := n }

/-- The frame stands in the range, cut to its size, and no byte outside the range has changed. -/
structure State.Received (s : State) (f : List Byte) (off size : Nat) (t : State) : Prop where
  inside : ∀ k, k < size → k < f.length → t.byteAt (.buf .rx) (off + k) = f.getD k 0#8
  outside : ∀ a, a < off ∨ off + size ≤ a → t.byteAt (.buf .rx) a = s.byteAt (.buf .rx) a

theorem State.Received.of_completeRx {s : State} {off : Nat} {size : U32} (hchk : dmaChecked s.cfg .rx off size) (id : U32)
    (rest : List DmaRec) (f : List Byte) (q : List (U32 × List Byte)) :
    s.Received f off size.toNat (completeRx (startedRec s.cfg .rx off size id) rest f q s) where
  inside k hk hf := by
    have hrow := byteAt_completeRx_row (i := 0) (k := k) rest f q (startedRec_inside hchk id) (.inr (Nat.le_refl 1))
      Nat.one_pos hk (by simpa using hf)
    have haddr : s.cfg.bufPhys .rx + off + 0 * size.toNat - s.cfg.bufPhysRx = off := by
      rw [Nat.zero_mul]
      exact Nat.add_sub_cancel_left s.cfg.bufPhysRx off
    rwa [startedRec, procedureRec, haddr, Nat.zero_mul, Nat.zero_add] at hrow
  outside a ha := by
    refine byteAt_completeRx_outside rest f q fun i hi => ?_
    obtain rfl : i = 0 := Nat.lt_one_iff.1 hi
    have hphys : s.cfg.bufPhys .rx = s.cfg.bufPhysRx := rfl
    simp only [startedRec, procedureRec]
    omega

theorem State.Received.congr {s t s' t' : State} {f : List Byte} {off size : Nat} (h : s.Received f off size t)
    (hs : s'.space (.buf .rx) = s.space (.buf .rx)) (hse : s'.epoch = s.epoch)
    (ht : t'.space (.buf .rx) = t.space (.buf .rx)) (hte : t'.epoch = t.epoch) : s'.Received f off size t' where
  inside k hk hf := (State.byteAt_congr _ _ ht hte).trans (h.inside k hk hf)
  outside a ha := by
    rw [State.byteAt_congr _ _ ht hte, State.byteAt_congr _ _ hs hse]
    exact h.outside a ha

section Run

variable {s : State} {d : DmaLocals} {l : DmaLabel} {p : U32} {T : Nat} {off : Nat} {size : U32} {len : U32}
  {f : List Byte} {q : List (U32 × List Byte)}

/-- The completion moves the frame, wherever the procedure stands (R543, R851). -/
theorem drives_completeRx (hchk : dmaChecked s.cfg .rx off size) (hid32 : d.id.toNat < 32)
    (hq : s.mrx.rxq = (len, f) :: q) :
    Drives [.dmac .rx] (s.CarryingAt .rx false true l d (startedRec s.cfg .rx off size d.id) p T)
      (fun t => ∃ b n, s.Received f off size.toNat (s.received q b n) ∧
        (s.received q b n).CarriedAt .rx false true l d (p ||| 2#32) T t) :=
  drives_carrying fun m hcar => .single fun u hu => by
    obtain ⟨x, ls, pk, rfl, hx⟩ := hu
    have hstep : dmacStep .rx (s.dmaAt .rx l x m ls pk T) = completeRx _ [] f q (s.dmaAt .rx l x m ls pk T) :=
      dmacStep_completeRx (s := s.dmaAt .rx l x m ls pk T) hcar.queue hcar.enabled rfl (startedRec_inside hchk _) hq
    have hrec : (s.dmaAt .rx l x m ls pk T).Received f off size.toNat (dmacStep .rx (s.dmaAt .rx l x m ls pk T)) :=
      hstep ▸ .of_completeRx (s := s.dmaAt .rx l x m ls pk T) hchk d.id [] f q
    obtain ⟨b, n, hv⟩ : ∃ b n, dmacStep .rx (s.dmaAt .rx l x m ls pk T) =
        (s.received q b n).dmaAt .rx l x (m.complete (startedRec s.cfg .rx off size d.id) []) ls pk T :=
      ⟨_, _, hstep.trans (completeRx_frame ..)⟩
    rw [hv] at hrec
    exact ⟨_, congrArg (onNext State.latch) (congrArg Host.Outcome.next hv), b, n, hrec.congr rfl rfl rfl rfl, _,
      hcar.complete rfl hid32, State.InDma.latch ⟨x, ls, pk, rfl, hx⟩⟩

end Run

/-! ## The short cut of the wait for EOT (R507 DR14) -/

section ShortCut

variable {s : State} {e : Engine} {cyc cnf : Bool} {d : DmaLocals} {m : Dmac} {T : Nat}

theorem State.Goes.shortCut (hp : d.phase = .eot) (hdone : m.transferDone.getLsbD d.id.toNat = true) :
    s.Goes e cyc cnf T ⟨.wp1, d, m⟩ ⟨.pd1, d, m⟩ :=
  .read fun u hu => ⟨u.lines, (if_pos (by
    rw [← hdone, ← hu.ctrl_eq]
    rfl)).trans (afterPhase_eot hp e u)⟩

theorem State.Goes.noShortCut (hdone : m.transferDone.getLsbD d.id.toNat = false) :
    s.Goes e cyc cnf T ⟨.wp1, d, m⟩ ⟨.wp2, d, m⟩ :=
  .read fun u hu => ⟨u.lines, if_neg (by
    rw [Bool.not_eq_true, ← hdone, ← hu.ctrl_eq]
    rfl)⟩

theorem drives_shortCut {p : U32} {i : Instr} (hr : s.RunsProcedure e false cnf i) (hp : d.phase = .eot) :
    Drives [.channel e.channel .wake] (s.CarriedAt e false cnf .wp1 d p T) (s.CarriedAt e false cnf .pd1 d p T) :=
  fun u ⟨m, hm, hu⟩ => by
    obtain ⟨v, hv, hB⟩ := (State.Goes.shortCut hp hm.done).drives hr .wake u hu
    exact ⟨v, hv, m, hm, hB⟩

end ShortCut

/-! ## The schedules -/

/-- The schedules, cut where the run's parts end. -/
theorem dmaReadSchedule_eq : dmaReadSchedule =
    List.replicate 12 (.channel .rx .wake) ++ [.dmac .rx] ++ List.replicate 4 (.channel .rx .wake) ++ [.dmac .rx] ++
      ([.channel .rx .wake] ++ List.replicate 2 (.channel .rx .wake)) := rfl

theorem dmaReadTimeoutSchedule_eq (T : Nat) : dmaReadTimeoutSchedule T =
    List.replicate 12 (.channel .rx .wake) ++
        ([.channel .rx .wake] ++ List.replicate T .clock ++ [.channel .rx .expire]) ++ [.channel .rx .wake] ++
      ([.channel .rx .wake] ++ List.replicate T .clock ++ [.channel .rx .expire] ++ [.dmac .rx]) ++ [.dmac .rx] ++
      List.replicate 2 (.channel .rx .wake) := by
  simp [dmaReadTimeoutSchedule, List.replicate_succ]

/-- The command's end with the frame in its range. -/
def State.ReadDelivered (s : State) (f : List Byte) (q : List (U32 × List Byte)) (T : Nat) (t : State) : Prop :=
  ∃ b n, s.Received f s.chRx.opd.a0.toNat s.chRx.opd.a1.toNat (s.received q b n) ∧
    ∃ (m : Dmac) (p : U32), m.Carried s.drx.transferId p ∧ (s.received q b n).DmaEnds .rx m T s.chRx.opd.a1 t

section ReadRun

variable {s : State} {len : U32} {f : List Byte} {q : List (U32 × List Byte)} (hc : s.cfg.wf = true)
  (hl : s.drx.Legal s.cfg) (hr : s.RunsProcedure .rx false true (.dmaRead .rx)) (hpc : s.chRx.pc = .dma .d1)
  (ho : s.openRx = true) (hchk : dmaChecked s.cfg .rx s.chRx.opd.a0.toNat s.chRx.opd.a1) (hq : s.mrx.rxq = (len, f) :: q)

/-- From the completion on, the rest of a schedule runs in the state with the frame received. -/
theorem Drives.afterReceived {ms : List Move} {d : DmaLocals} {l : DmaLabel} {p : U32} {T : Nat} (hdead : s.worker.pc = .dead)
    (hr : s.RunsProcedure .rx false true (.dmaRead .rx)) (hid : d.id = s.drx.transferId) (hsize : d.size = s.chRx.opd.a1)
    (h : ∀ u : State, u.RunsProcedure .rx false true (.dmaRead .rx) → Drives ms (u.CarriedAt .rx false true l d p T)
      (fun t => ∃ m : Dmac, m.Carried d.id p ∧ u.DmaEnds .rx m T d.size t)) :
    Drives ms (fun t => ∃ b n, s.Received f s.chRx.opd.a0.toNat s.chRx.opd.a1.toNat (s.received q b n) ∧
      (s.received q b n).CarriedAt .rx false true l d p T t) (s.ReadDelivered f q T) := by
  rintro u ⟨b, n, hrec, hu⟩
  obtain ⟨t, ht, m, hm, hend⟩ := h (s.received q b n) ⟨fun _ => .read (.inr hdead), hr.busy, hr.decodes⟩ u hu
  exact ⟨t, ht, b, n, hrec, m, p, hid ▸ hm, hsize ▸ hend⟩

include hc hl hr hpc ho hchk hq

theorem drives_dmaReadSchedule (hdead : s.worker.pc = .dead) :
    Drives dmaReadSchedule (· = s) (s.ReadDelivered f q s.timeMs) := by
  rintro u rfl
  have hid32 : u.drx.transferId.toNat < 32 := hl.transferId.trans_le (Config.wf_transferIds hc).2
  have htoEot := drives_toEot (T := u.timeMs) (d := dmaArgs u.chRx.opd false true u.chRx.loc.dma) hr hc ho hl.irqPending
    hchk rfl nofun
  have hreceived := htoEot.append (drives_completeRx hchk hid32 hq)
  rw [dmaReadSchedule_eq]
  exact (hreceived.append (.afterReceived hdead hr (by rfl) (by rfl) fun v hv =>
    (drives_shortCut hv (by rfl)).append (drives_polled hv))) u (.first hpc)

theorem drives_dmaReadTimeoutSchedule (hdead : s.worker.pc = .dead) :
    Drives (dmaReadTimeoutSchedule s.cfg.dmaIrqTimeoutMs) (· = s)
      (s.ReadDelivered f q (s.timeMs + s.cfg.dmaIrqTimeoutMs + s.cfg.dmaIrqTimeoutMs)) := by
  rintro u rfl
  have hid32 : u.drx.transferId.toNat < 32 := hl.transferId.trans_le (Config.wf_transferIds hc).2
  have htoEot := drives_toEotTimeout (T := u.timeMs) (d := dmaArgs u.chRx.opd false true u.chRx.loc.dma) hr hc ho
    hl.irqPending hchk rfl nofun
  have hreceived := ((htoEot.append (drives_goes hr .wake fun _ hm => .noShortCut hm.notDone)).append
    (drives_lateStart hr rfl rfl)).append (drives_completeRx hchk hid32 hq)
  rw [dmaReadTimeoutSchedule_eq]
  exact (hreceived.append (.afterReceived hdead hr (by rfl) (by rfl) fun _ hv => drives_polled hv)) u (.first hpc)

end ReadRun

/-- Settles O24: either schedule leads through the parts of the run to its end. -/
theorem dmaReadConfirmedDelivers : Obligations.DmaReadConfirmedDelivers := by
  unfold Obligations.DmaReadConfirmedDelivers
  intro s len f q hc hl hbusy hdec hpc ho hdead hq hpos hfit ms time hms
  have hr : s.RunsProcedure .rx false true (.dmaRead .rx) := ⟨fun _ => .read (.inr hdead), hbusy, hdec⟩
  have hchk : dmaChecked s.cfg .rx s.chRx.opd.a0.toNat s.chRx.opd.a1 := ⟨hpos, hfit⟩
  have hrun : ∃ t, actAll ms s = .next t ∧ s.ReadDelivered f q time t := by
    obtain ⟨rfl, rfl⟩ | ⟨rfl, rfl⟩ := hms
    · exact drives_dmaReadSchedule hc hl hr hpc ho hchk hq hdead s rfl
    · exact drives_dmaReadTimeoutSchedule hc hl hr hpc ho hchk hq hdead s rfl
  obtain ⟨t, ht, b, n, hrec, m, p, hm, hend⟩ := hrun
  obtain ⟨hidle, hstatus, hres, hlabel⟩ := hend.finished
  refine ⟨t, ht, ?_⟩
  obtain ⟨x, ls, pk, rfl⟩ := hend
  exact ⟨rfl, hidle, hstatus, hres, hlabel, hm.queue, hm.done, hrec.inside, hrec.outside⟩

end Sys2Proof.Machine
end

section
/-! SUPPORT. The pending bits of a controller under every move (R542, R543, R546): only a step of the controller sets one, and
only a write to `IRQ_PENDING` clears one. -/

namespace Sys2Proof.Machine

/-! ## The register itself -/

theorem Dmac.irqPending_write_other {d : Dmac} {k : DReg} (hk : k ≠ .irqPending) (c : Config) (e : Engine) (v : U32) :
    (d.write c e k v).irqPending = d.irqPending := by
  cases k with
  | irqPending => exact absurd rfl hk
  | transferSubmit =>
    unfold Dmac.write Dmac.submit
    dsimp only
    split
    · split <;> rfl
    · rfl
  | _ => rfl

/-- `t` has the pending bits of `s`, or those that a write of `w` to `IRQ_PENDING` leaves. -/
def State.ClearsPending (s t : State) (e : Engine) (w : Option U32) : Prop :=
  (t.dmac e).irqPending = (s.dmac e).irqPending ∨
    ∃ v, w = some v ∧ (t.dmac e).irqPending = (s.dmac e).irqPending &&& ~~~(v &&& 0x3#32)

theorem State.ClearsPending.of_dmac {s t : State} {e : Engine} (h : t.dmac e = s.dmac e) (w : Option U32) :
    s.ClearsPending t e w := .inl (congrArg Dmac.irqPending h)

theorem State.ClearsPending.congr {s t u : State} {e : Engine} {w : Option U32} (h : s.ClearsPending t e w)
    (hu : u.dmac e = t.dmac e) : s.ClearsPending u e w := by
  unfold State.ClearsPending
  rw [hu]
  exact h

theorem State.dmac_setChan (s : State) (c : Channel) (x : Chan) (e : Engine) : (s.setChan c x).dmac e = s.dmac e := by
  cases c <;> cases e <;> rfl

theorem State.dmac_setLine (s : State) (sp : Space) (l : Line) (e : Engine) : (s.setLine sp l).dmac e = s.dmac e := by
  cases e <;> rfl

theorem dmac_irqWait {s t : State} {sp : Space} {t0 T : Nat} {r : IrqResult} (h : s.irqWait sp t0 T = some (r, t))
    (e : Engine) : t.dmac e = s.dmac e := by
  rcases State.irqWait_eq_some h with ⟨-, -, -, rfl⟩ | ⟨-, -, -, rfl⟩ | ⟨-, -, -, rfl⟩
  · exact s.dmac_setLine ..
  · rfl
  · rfl

/-! ## The DMA procedures (R505, R507, R509) -/

/-- A step of a procedure writes `IRQ_PENDING` where it discards or acknowledges, and nowhere else. -/
theorem clearsPending_dmaStep {e : Engine} {l l' : DmaLabel} {d d' : DmaLocals} {s t : State}
    (h : dmaStep e l d s = .go l' d' t) : s.ClearsPending t e (l.acknowledges d) := by
  have hother : ∀ {k v}, k ≠ .irqPending → s.ClearsPending (s.regWrite (dReg e k) v) e (l.acknowledges d) := fun hk =>
    .inl (by rw [State.dmac_regWrite, Dmac.irqPending_write_other hk])
  have hclear : ∀ {v}, l.acknowledges d = some v →
      s.ClearsPending (s.regWrite (dReg e .irqPending) v) e (l.acknowledges d) := fun hv =>
    .inr ⟨_, hv, by rw [State.dmac_regWrite]; rfl⟩
  have hsame : ∀ {u : State}, u.dmac e = s.dmac e → s.ClearsPending u e (l.acknowledges d) := fun hu => .of_dmac hu _
  cases l <;> simp only [dmaStep] at h
  case d1 =>
    obtain ⟨-, rfl, -⟩ := dmaCheck_eq_go h
    exact hsame rfl
  case d4 =>
    cases h
    exact hclear rfl
  case wp5 =>
    unfold dmaAck at h
    dsimp only at h
    split at h
    · exact eq_of_afterPhase_go h ▸ hclear rfl
    · cases h
      exact hclear rfl
  case d7 | d8 =>
    cases h
    exact hother (by cases e <;> decide)
  case d12 => split at h <;> cases h <;> exact hother (by decide)
  case d11 | wp4 =>
    cases h
    exact hsame rfl
  case wp1 =>
    split at h
    · exact hsame (eq_of_afterPhase_go h ▸ rfl)
    · cases h
      exact hsame rfl
  case wp2 =>
    cases h
    exact hsame (s.dmac_setLine e.space { s.line e.space with masked := false } e)
  case wp3 =>
    unfold dmaIrqWait at h
    split at h
    · cases h
    · cases h
    next hw => exact hsame (eq_of_afterPhase_go h ▸ dmac_irqWait hw e)
    next hw =>
      cases h
      exact hsame (dmac_irqWait hw e)
  case pd1 =>
    split at h <;> cases h <;> exact hsame rfl
  case back => cases h
  all_goals
    cases h
    exact hother (by decide)

/-- The same for the step of a command that runs a procedure. -/
theorem clearsPending_runAs {e : Engine} {l : DmaLabel} {d : DmaLocals} {s : State} {c : Channel} {mk : DmaLabel → Label}
    {returned : U32 → State → State} (hret : ∀ v, (returned v s).dmac e = s.dmac e) :
    s.ClearsPending ((dmaStep e l d s).runAs c mk returned s) e (l.acknowledges d) := by
  cases h : dmaStep e l d s with
  | go l' d' t => exact (clearsPending_dmaStep h).congr (State.dmac_setChan ..)
  | ret st v t =>
    obtain rfl := eq_of_dmaStep_ret h
    refine .of_dmac ?_ _
    cases st with
    | ok => exact hret v
    | _ => exact State.dmac_setChan ..
  | blocked => exact .of_dmac rfl _

/-! ## The commands -/

section Commands

variable {s t : State}

theorem AbortsAtMost.clearsPending (h : AbortsAtMost s t) (e : Engine) (w : Option U32) : s.ClearsPending t e w := by
  rcases h e with h | ⟨v, h⟩
  · exact .of_dmac h w
  · exact .inl (by rw [h, Dmac.irqPending_write_other (by decide)])

/-- The value that a command of an engine's channel writes is that of the procedure it stands in. -/
theorem State.pendingWrite_tx {l : DmaLabel} (h : s.chTx.pc.dmaLabel = some l) (p : Pick) :
    s.pendingWrite (.channel .tx p) .tx = l.acknowledges s.chTx.loc.dma := by
  unfold State.pendingWrite
  dsimp only
  cases hpc : s.chTx.pc <;> rw [hpc] at h <;> cases h <;> rfl

theorem State.pendingWrite_rx {l : DmaLabel} (h : s.chRx.pc = .dma l) (p : Pick) :
    s.pendingWrite (.channel .rx p) .rx = l.acknowledges s.chRx.loc.dma := by
  simp only [State.pendingWrite, h]

theorem dmaCommand_clearsPending {e : Engine} {l : DmaLabel} {w : Option U32} (cyc cnf : Bool)
    (hw : w = l.acknowledges (s.chan e.channel).loc.dma) :
    leadsTo (fun t => s.ClearsPending t e w) (dmaCommand e cyc cnf l s) := by
  have hargs : l.acknowledges (dmaArgs (s.chan e.channel).opd cyc cnf (s.chan e.channel).loc.dma) = w := by
    rw [hw]
    cases l <;> rfl
  rw [dmaCommand_eq_runAs, ← hargs]
  exact clearsPending_runAs fun v => State.dmac_setChan ..

theorem execDmaWrite_clearsPending (e : Engine) (cyc cnf : Bool) (p : Pick) : leadsTo
    (fun t => s.ClearsPending t e (s.pendingWrite (.channel e.channel p) e)) (execDmaWrite e cyc cnf s) := by
  unfold execDmaWrite
  split
  next hpc =>
    split
    · exact .of_dmac (State.dmac_setChan ..) _
    · cases e with
      | tx => exact dmaCommand_clearsPending cyc cnf (State.pendingWrite_tx (congrArg Label.dmaLabel hpc) p)
      | rx => contradiction
  · trivial

theorem execDmaRead_clearsPending (e : Engine) (p : Pick) : leadsTo
    (fun t => s.ClearsPending t e (s.pendingWrite (.channel e.channel p) e)) (execDmaRead e s) := by
  unfold execDmaRead
  split
  next hpc =>
    split
    · exact .of_dmac (State.dmac_setChan ..) _
    · split
      · exact .of_dmac (State.dmac_setChan ..) _
      · cases e with
        | tx => contradiction
        | rx => exact dmaCommand_clearsPending false true (State.pendingWrite_rx hpc p)
  · trivial

theorem txFlush_clearsPending {mk : DmaLabel → Label} {k : State → State} {l : DmaLabel} (hk : (k s).dtx = s.dtx)
    (hpc : s.chTx.pc.dmaLabel = some l) (p : Pick) :
    s.ClearsPending (txFlush mk k l s) .tx (s.pendingWrite (.channel .tx p) .tx) := by
  rw [txFlush_eq_runAs, State.pendingWrite_tx hpc]
  exact clearsPending_runAs fun _ => hk

theorem txCheck_dtx (s : State) : (txCheck s).dtx = s.dtx := by
  unfold txCheck
  dsimp only
  split
  · rfl
  · split
    · rfl
    · split <;> rfl

theorem txPlan_dtx (s : State) : (txPlan s).dtx = s.dtx := by
  unfold txPlan
  dsimp only
  split <;> rfl

theorem txStage_dtx (s : State) : (txStage s).dtx = s.dtx := by
  unfold txStage
  dsimp only
  split <;> rfl

theorem txFlushed_dtx (s : State) : (txFlushed s).dtx = s.dtx := by
  unfold txFlushed
  dsimp only
  split
  · rfl
  · split <;> rfl

theorem txPause_dtx (s : State) : (txPause s).dtx = s.dtx := by
  unfold txPause
  split <;> rfl

/-- Of TX.WRITE's steps only those of a flush touch the controller (R714, R715, R717). -/
theorem execTxWrite_clearsPending (p : Pick) :
    leadsTo (fun t => s.ClearsPending t .tx (s.pendingWrite (.channel .tx p) .tx)) (execTxWrite s) := by
  unfold execTxWrite
  split
  · exact .of_dmac (e := .tx) (txCheck_dtx s) _
  · exact .of_dmac (e := .tx) (txPlan_dtx s) _
  · exact .of_dmac (e := .tx) (txStage_dtx s) _
  next hpc => exact txFlush_clearsPending rfl (congrArg Label.dmaLabel hpc) p
  · exact .of_dmac rfl _
  next hpc => exact txFlush_clearsPending (txFlushed_dtx s) (congrArg Label.dmaLabel hpc) p
  · exact .of_dmac rfl _
  · exact .of_dmac (e := .tx) (txPause_dtx s) _
  · exact .of_dmac rfl _
  next hpc => exact txFlush_clearsPending rfl (congrArg Label.dmaLabel hpc) p
  · exact .of_dmac rfl _
  · trivial

/-- A command of the engine's own channel. -/
theorem exec_clearsPending_own {i : Instr} {e : Engine} (h : exec i s = .next t) (hi : i.channel = e.channel) (p : Pick) :
    s.ClearsPending t e (s.pendingWrite (.channel e.channel p) e) := by
  cases i with
  | dmaWrite e' cyc cnf =>
    obtain rfl : e' = e := by cases e <;> cases e' <;> first | rfl | cases hi
    exact leadsTo_of_next (execDmaWrite_clearsPending e' cyc cnf p) h
  | dmaRead e' =>
    obtain rfl : e' = e := by cases e <;> cases e' <;> first | rfl | cases hi
    exact leadsTo_of_next (execDmaRead_clearsPending e' p) h
  | txWrite =>
    obtain rfl : e = .tx := by cases e <;> first | rfl | cases hi
    exact leadsTo_of_next (execTxWrite_clearsPending p) h
  | regWrite _ => cases e <;> cases hi
  | _ => exact (exec_aborts h rfl fun _ => nofun).clearsPending e _

/-- The host's register write (R411). -/
theorem execRegWrite_clearsPending {e : Engine} (hd : decode s.chBus.cmd = .ok (.regWrite e.space)) (p : Pick) :
    leadsTo (fun t => s.ClearsPending t e (s.pendingWrite (.channel .bus p) e)) (execRegWrite e.space s) := by
  unfold execRegWrite
  split
  next =>
    split
    · exact .of_dmac (State.dmac_setChan ..) _
    next r hr =>
      refine .congr (t := s.regWrite r s.chBus.opd.a1) ?_ (State.dmac_setChan ..)
      by_cases hpend : r = .dmac e .irqPending
      · subst hpend
        refine .inr ⟨s.chBus.opd.a1, ?_, by rw [← dReg, State.dmac_regWrite]; rfl⟩
        simp only [State.pendingWrite, hd, hr, and_self, if_true]
      · refine .inl ?_
        have hspace := space_of_regAt hr
        cases r with
        | dmac e' k =>
          obtain rfl : e' = e := by cases e <;> cases e' <;> first | rfl | cases hspace
          have hk : k ≠ .irqPending := fun hk => hpend (hk ▸ rfl)
          rw [← dReg, State.dmac_regWrite, Dmac.irqPending_write_other hk]
        | mtx k => cases e <;> cases hspace
        | mrx k => cases e <;> cases hspace
  · trivial

/-- One step of a channel writes `IRQ_PENDING` of a controller as `State.pendingWrite` says. -/
theorem channelStep_clearsPending {c : Channel} (h : channelStep c s = .next t) (e : Engine) (p : Pick) :
    s.ClearsPending t e (s.pendingWrite (.channel c p) e) := by
  rcases channelStep_eq_next h with ⟨-, rfl⟩ | ⟨-, i, hd, rfl, hi⟩
  · exact .of_dmac rfl _
  · by_cases hreg : i = .regWrite e.space
    · subst hreg
      exact leadsTo_of_next (execRegWrite_clearsPending hd p) hi
    · by_cases hc : i.channel = e.channel
      · rw [hc]
        exact exec_clearsPending_own hi hc p
      · exact .of_dmac (exec_dmac_other hi hc hreg) _

end Commands

/-! ## The other agents -/

section Agents

variable {s t : State}

theorem State.dmac_of_regFile (h : t.regFile = s.regFile) (e : Engine) : t.dmac e = s.dmac e := by
  simp only [State.regFile, Prod.mk.injEq] at h
  obtain ⟨hdtx, hdrx, -⟩ := h
  cases e
  · exact hdtx
  · exact hdrx

theorem wRead_clearsPending {l : DmaLabel} (hpc : s.worker.pc = .w7 l) (e : Engine) (p : Pick) :
    s.ClearsPending (wRead l s) e (s.pendingWrite (.worker p) e) := by
  have hret : ∀ {st v u} (w : State), dmaStep .rx l s.worker.dma s = .ret st v u → w.dmac e = u.dmac e →
      s.ClearsPending w e (s.pendingWrite (.worker p) e) := fun w hs hw =>
    .of_dmac (hw.trans (eq_of_dmaStep_ret hs ▸ rfl)) _
  unfold wRead
  split
  next hs =>
    cases e with
    | tx =>
      have hk := dmaStep_keeps .rx l s.worker.dma s
      rw [hs] at hk
      exact .of_dmac (hk.1.dmac_other (e' := .tx) nofun) _
    | rx =>
      have hw : s.pendingWrite (.worker p) .rx = l.acknowledges s.worker.dma := by simp only [State.pendingWrite, hpc]
      rw [hw]
      exact (clearsPending_dmaStep hs).congr rfl
  next hs => exact hret _ hs (by cases e <;> rfl)
  next hs => exact hret _ hs (by cases e <;> rfl)
  next hs => exact hret _ hs (by cases e <;> rfl)
  · exact .of_dmac rfl _

/-- Of the worker's steps only those of its DMA read touch a controller (R830). -/
theorem workerStep_clearsPending (s : State) (e : Engine) (p : Pick) :
    s.ClearsPending (workerStep s) e (s.pendingWrite (.worker p) e) := by
  have hkept : ∀ {u : State}, u.regFile = s.regFile → s.ClearsPending u e (s.pendingWrite (.worker p) e) := fun hu =>
    .of_dmac (State.dmac_of_regFile hu e) _
  unfold workerStep
  split
  · exact hkept rfl
  · split <;> exact hkept rfl
  · exact hkept rfl
  · exact hkept (regFile_wWait s)
  · exact hkept (regFile_wWoke s)
  · unfold wLength
    dsimp only
    split <;> exact hkept rfl
  · unfold wPlace
    split <;> exact hkept rfl
  next hpc => exact wRead_clearsPending hpc e p
  · unfold wPublish
    split <;> exact hkept rfl
  · exact hkept rfl

theorem modemRxStep_dmac (len : U32) (f : List Byte) (s : State) (e : Engine) :
    (modemRxStep len f s).dmac e = s.dmac e := by
  unfold modemRxStep
  split
  · cases e <;> rfl
  · rfl

/-- `d'` has the pending bits of `d`, or those that signalling a phase leaves (R542, R543). -/
def Dmac.Signals (d d' : Dmac) : Prop :=
  d'.irqPending = d.irqPending ∨ ∃ ph, d'.irqPending = (d.signal ph).irqPending

theorem Dmac.Signals.start (d : Dmac) (r : DmaRec) (rest : List DmaRec) : d.Signals (d.start r rest) := by
  refine .inr ⟨.sot, ?_⟩
  unfold Dmac.start Dmac.signal
  split <;> rfl

theorem Dmac.Signals.complete (d : Dmac) (r : DmaRec) (rest : List DmaRec) : d.Signals (d.complete r rest) :=
  .inr ⟨.eot, rfl⟩

/-- A signalled phase that shows a new bit is unmasked, and its bit is the new one. -/
theorem Dmac.Signals.new_bit {d d' : Dmac} (h : d.Signals d') {i : Nat} (hnew : d'.irqPending.getLsbD i = true)
    (hold : d.irqPending.getLsbD i = false) : i < 2 ∧ d.irqMask.getLsbD i = false := by
  rcases h with h | ⟨ph, h⟩
  · rw [h, hold] at hnew
    cases hnew
  · rw [h] at hnew
    unfold Dmac.signal at hnew
    split at hnew
    · rw [hold] at hnew
      cases hnew
    next hmask =>
      have hbit : i = ph.bit := by
        by_contra hne
        simp [setBit, bitMask, hold] at hnew
        omega
      subst hbit
      exact ⟨by cases ph <;> decide, by simpa using hmask⟩

theorem Dmac.Signals.keeps_bit {d d' : Dmac} (h : d.Signals d') {i : Nat} (hold : d.irqPending.getLsbD i = true) :
    d'.irqPending.getLsbD i = true := by
  rcases h with h | ⟨ph, h⟩
  · rw [h, hold]
  · rw [h]
    unfold Dmac.signal
    split
    · exact hold
    · simp [setBit, hold]

/-- A step of a controller signals at most, and the other controller stays. -/
structure ControllerSteps (e : Engine) (s t : State) : Prop where
  others : ∀ e', e' ≠ e → t.dmac e' = s.dmac e'
  own : (s.dmac e).Signals (t.dmac e)

theorem ControllerSteps.refl (e : Engine) (s : State) : ControllerSteps e s s := ⟨fun _ _ => rfl, .inl rfl⟩

theorem ControllerSteps.of_setDmac {e : Engine} {d : Dmac} (hd : (s.dmac e).Signals d)
    (ht : ∀ e', t.dmac e' = (s.setDmac e d).dmac e') : ControllerSteps e s t where
  others e' he := (ht e').trans (State.dmac_setDmac_other s e e' d he)
  own := by rwa [ht, State.dmac_setDmac_same]

/-- A controller starts, completes or drops its head (R540, R542, R543). -/
theorem dmacStep_controllers (e : Engine) (s : State) : ControllerSteps e s (dmacStep e s) := by
  have hdrop : ∀ rest, ControllerSteps e s (dropWild e rest s) := fun rest =>
    .of_setDmac (d := { s.dmac e with queue := rest }) (.inl rfl) fun e' => by cases e <;> cases e' <;> rfl
  unfold dmacStep
  dsimp only
  split
  · exact .refl e s
  next r rest hq =>
    split
    · exact .refl e s
    · split
      · exact .of_setDmac (.start ..) fun _ => rfl
      · cases e with
        | tx =>
          dsimp only
          split
          · exact .refl .tx s
          · split
            · exact .of_setDmac (.complete _ r rest) fun e' => by cases e' <;> rfl
            · exact hdrop rest
        | rx =>
          dsimp only
          split
          · exact .refl .rx s
          · split
            · exact .of_setDmac (.complete _ r rest) fun e' => by rw [completeRx_frame]; cases e' <;> rfl
            · exact hdrop rest

/-! ## Every move -/

/-- Only the controller itself and reset change a pending bit otherwise than by a write to the register. -/
theorem moveBody_clearsPending {m : Move} {e : Engine} (hown : m ≠ .dmac e) (hreset : m ≠ .reset)
    (h : moveBody m s = .next t) : s.ClearsPending t e (s.pendingWrite m e) := by
  cases m with
  | host a => exact .of_dmac (State.dmac_of_regFile (hostStep_regFile h) e) _
  | channel c p => exact channelStep_clearsPending (s := { s with pick := p }) h e p
  | worker p =>
    cases h
    exact workerStep_clearsPending { s with pick := p } e p
  | dmac e' =>
    cases h
    exact .of_dmac ((dmacStep_controllers e' s).others e fun he => hown (he ▸ rfl)) _
  | modemRx len f =>
    cases h
    exact .of_dmac (modemRxStep_dmac len f s e) _
  | modemTx =>
    cases h
    exact .of_dmac rfl _
  | clock =>
    cases h
    exact .of_dmac rfl _
  | reset => exact absurd rfl hreset

theorem resetEvent_irqPending (s : State) (e : Engine) : (s.resetEvent.dmac e).irqPending = 0#32 := by cases e <;> rfl

end Agents

/-- Settles O27: the controller's own step by what it signals, every other move by what it writes to the register. -/
theorem pendingBitsSetByControllerOnly : Obligations.PendingBitsSetByControllerOnly := by
  unfold Obligations.PendingBitsSetByControllerOnly
  intro m s t e i h
  obtain ⟨u, hu, rfl⟩ := act_eq_next h
  change ((u.dmac e).irqPending.getLsbD i = true → _) ∧ ((u.dmac e).irqPending.getLsbD i = false → _)
  by_cases hreset : m = .reset
  · subst hreset
    cases hu
    refine ⟨fun hset => ?_, fun _ _ => .inl rfl⟩
    rw [resetEvent_irqPending] at hset
    simp at hset
  by_cases hown : m = .dmac e
  · subst hown
    cases hu
    have hstep := (dmacStep_controllers e s).own
    exact ⟨fun hnew hold => ⟨rfl, hstep.new_bit hnew hold⟩, fun hclear hold => absurd (hstep.keeps_bit hold) (by simp [hclear])⟩
  rcases moveBody_clearsPending hown hreset hu with hkept | ⟨v, hv, hwritten⟩
  · rw [hkept]
    exact ⟨fun hnew hold => absurd (hold.symm.trans hnew) (by decide), fun hclear hold =>
      absurd (hold.symm.trans hclear) (by decide)⟩
  · rw [hwritten]
    refine ⟨fun hnew hold => ?_, fun hclear hold => .inr ⟨v, hv, ?_⟩⟩
    · rw [BitVec.getLsbD_and, hold] at hnew
      cases hnew
    · have hbits : (v &&& 0x3#32).getLsbD i = true := by
        simpa [hold, BitVec.lt_of_getLsbD hold] using hclear
      rw [BitVec.getLsbD_and, Bool.and_eq_true] at hbits
      exact hbits.1

end Sys2Proof.Machine
end

section
/-! SUPPORT. What the commands answer: no `STATUS` and no code of the worker is ever `E_TIMEOUT` (R511, R901). -/

namespace Sys2Proof.Machine

/-! ## A channel's status under one step -/

theorem Status.code_ne_eTimeout {st : Status} (h : st ≠ .eTimeout) : st.code ≠ Status.eTimeout.code := by
  revert h
  cases st <;> decide

/-- The channel keeps its `STATUS`, or shows one that is not `E_TIMEOUT`. -/
def Answers (c : Channel) (s t : State) : Prop :=
  (t.chan c).status = (s.chan c).status ∨ ∃ st : Status, st ≠ .eTimeout ∧ (t.chan c).status = st.code

namespace Answers

variable {c : Channel} {s t u : State} {l : Label} {x : Locals} {st : Status} {vs : List U32}

theorem ne_eTimeout (h : Answers c s t) (hs : (s.chan c).status ≠ Status.eTimeout.code) :
    (t.chan c).status ≠ Status.eTimeout.code := by
  rcases h with h | ⟨st, hst, h⟩
  · rwa [h]
  · rw [h]
    exact Status.code_ne_eTimeout hst

theorem stay : Answers c s s := .inl rfl

theorem gotoWith (hu : KeepsChannels s u) : Answers c s (u.gotoWith c l x) := .inl (by
  rw [State.chan_gotoWith, ← hu.chan])

theorem goto (hu : KeepsChannels s u) : Answers c s (u.goto c l) := .inl (by
  rw [State.chan_goto, ← hu.chan])

theorem finish (hst : st ≠ .eTimeout) : Answers c s (u.finish c st vs) := .inr ⟨st, hst, by
  rw [State.finish, State.chan_setChan_same]⟩

theorem raise (hst : st ≠ .eTimeout) : Answers c s (u.raise c st) := .finish hst

end Answers

/-! ## The statuses that parts of a step choose -/

theorem openEngine_ne_eTimeout {s t : State} {e : Engine} {st : Status} (h : s.openEngine e = (st, t)) :
    st ≠ .eTimeout := by
  unfold State.openEngine at h
  split at h
  · cases h
    nofun
  · split at h
    · cases h
      nofun
    · split at h <;> cases h <;> nofun

theorem dmaStep_ne_eTimeout {e : Engine} {l : DmaLabel} {d : DmaLocals} {s t : State} {st : Status} {v : U32}
    (h : dmaStep e l d s = .ret st v t) : st ≠ .eTimeout := by
  rcases dmaStep_status h with ⟨-, -, rfl | rfl | ⟨rfl, -⟩⟩ | ⟨-, rfl, -⟩ | ⟨-, rfl, -⟩ <;> nofun

theorem codecGuard_ne_eTimeout (e : Engine) (s : State) : codecGuard e s ≠ .eTimeout := by
  unfold codecGuard
  split
  · nofun
  · split <;> nofun

theorem hdrStatus_ne_eTimeout (c : Config) (h : Hdr) : hdrStatus c h ≠ .eTimeout := by
  unfold hdrStatus
  repeat' split
  all_goals nofun

/-! ## BUS commands -/

section Commands

variable (s : State)

theorem execRegRead_answers (sp : Space) : leadsTo (Answers .bus s) (execRegRead sp s) := by
  unfold execRegRead
  split
  · split
    · exact .raise nofun
    · exact .finish nofun
  · trivial

theorem execRegWrite_answers (sp : Space) : leadsTo (Answers .bus s) (execRegWrite sp s) := by
  unfold execRegWrite
  split
  · split
    · exact .raise nofun
    · exact .finish nofun
  · trivial

theorem execIrqMask_answers (sp : Space) : leadsTo (Answers .bus s) (execIrqMask sp s) := by
  unfold execIrqMask
  split
  · exact .finish nofun
  · trivial

theorem execIrqUnmask_answers (sp : Space) : leadsTo (Answers .bus s) (execIrqUnmask sp s) := by
  unfold execIrqUnmask
  split
  · exact .finish nofun
  · trivial

theorem execIrqWait_answers (sp : Space) : leadsTo (Answers .bus s) (execIrqWait sp s) := by
  unfold execIrqWait
  split
  · split
    · exact .stay
    · exact .raise nofun
    · exact .finish nofun
    · exact .finish nofun
  · trivial

/-! ## DMA and CODEC commands -/

theorem execDmaOpen_answers (e : Engine) : leadsTo (Answers e.channel s) (execDmaOpen e s) := by
  unfold execDmaOpen
  split
  · split
    · exact .finish nofun
    next h => exact .raise (openEngine_ne_eTimeout h)
  · trivial

theorem dmaCommand_answers (e : Engine) (cyc cnf : Bool) (l : DmaLabel) :
    leadsTo (Answers e.channel s) (dmaCommand e cyc cnf l s) := by
  unfold dmaCommand
  dsimp only
  split
  next h => exact .gotoWith (keepsChannels_dmaStep_go h)
  · exact .finish nofun
  next h => exact .raise (dmaStep_ne_eTimeout h)
  · exact .stay

theorem execDmaWrite_answers (e : Engine) (cyc cnf : Bool) :
    leadsTo (Answers e.channel s) (execDmaWrite e cyc cnf s) := by
  unfold execDmaWrite
  split
  · split
    · exact .raise nofun
    · exact dmaCommand_answers s e cyc cnf _
  · trivial

theorem execDmaRead_answers (e : Engine) : leadsTo (Answers e.channel s) (execDmaRead e s) := by
  unfold execDmaRead
  split
  · split
    · exact .raise nofun
    · split
      · exact .raise nofun
      · exact dmaCommand_answers s e false true _
  · trivial

theorem execDmaClose_answers (e : Engine) : leadsTo (Answers e.channel s) (execDmaClose e s) := by
  unfold execDmaClose
  split
  · split
    · exact .raise nofun
    · split
      · exact .finish nofun
      · exact .goto (keepsChannels_regWrite _ _ s)
  · exact .finish nofun
  · trivial

theorem execCodecEncode_answers (e : Engine) : leadsTo (Answers e.channel s) (execCodecEncode e s) := by
  unfold execCodecEncode
  split
  · unfold encodeFetch
    dsimp only
    split
    · exact .raise (codecGuard_ne_eTimeout e s)
    · split
      · exact .raise nofun
      · split
        · exact .raise nofun
        · exact .gotoWith (.refl s)
  · exact .finish nofun
  · trivial

theorem execCodecDecode_answers (e : Engine) : leadsTo (Answers e.channel s) (execCodecDecode e s) := by
  unfold execCodecDecode
  split
  · unfold decodeFetch
    dsimp only
    split
    · exact .raise (codecGuard_ne_eTimeout e s)
    · split
      · exact .raise nofun
      · split
        · exact .finish nofun
        · exact .gotoWith (keepsChannels_bufReadNote _ _ _ s)
  · exact .finish nofun
  · trivial

theorem execCodecCrc_answers (e : Engine) : leadsTo (Answers e.channel s) (execCodecCrc e s) := by
  unfold execCodecCrc
  dsimp only
  split
  · split
    · exact .raise (codecGuard_ne_eTimeout e s)
    · split
      · exact .raise nofun
      · exact .finish nofun
  · trivial

/-! ## TX commands -/

theorem execTxInit_answers : leadsTo (Answers .tx s) (execTxInit s) := by
  unfold execTxInit
  split
  · split
    · exact .finish nofun
    next h => exact .raise (openEngine_ne_eTimeout h)
  · trivial

theorem execTxClose_answers : leadsTo (Answers .tx s) (execTxClose s) := by
  unfold execTxClose
  split
  · split
    · exact .goto (keepsChannels_regWrite _ _ s)
    · exact .finish nofun
  · exact .finish nofun
  · trivial

theorem execTxSetMtu_answers : leadsTo (Answers .tx s) (execTxSetMtu s) := by
  unfold execTxSetMtu
  split
  · split
    · exact .raise nofun
    · exact .finish nofun
  · trivial

theorem execTxReset_answers : leadsTo (Answers .tx s) (execTxReset s) := by
  unfold execTxReset
  split
  · split
    · exact .raise nofun
    · exact .goto (.refl s)
  · exact .goto (keepsChannels_regWrite _ _ s)
  · exact .goto (keepsChannels_regWrite _ _ s)
  · exact .finish nofun
  · trivial

theorem txCheck_answers : Answers .tx s (txCheck s) := by
  unfold txCheck
  dsimp only
  split
  · exact .raise nofun
  · split
    · exact .raise nofun
    · split
      · exact .raise nofun
      · exact .gotoWith (.refl s)

theorem txPlan_answers : Answers .tx s (txPlan s) := by
  unfold txPlan
  dsimp only
  split
  · exact .raise nofun
  · exact .gotoWith (.of_frame rfl)

theorem txStage_answers : Answers .tx s (txStage s) := by
  unfold txStage
  dsimp only
  split <;> exact .gotoWith (keepsChannels_txBuild s)

theorem txFlushed_answers : Answers .tx s (txFlushed s) := by
  unfold txFlushed
  dsimp only
  split
  · exact .gotoWith (.refl s)
  · split <;> exact .gotoWith (.refl s)

theorem txPause_answers : Answers .tx s (txPause s) := by
  unfold txPause
  split
  · exact .goto (.refl s)
  · exact .stay

theorem txFlush_answers (mk : DmaLabel → Label) {k : State → State} (hk : Answers .tx s (k s)) (l : DmaLabel) :
    Answers .tx s (txFlush mk k l s) := by
  unfold txFlush
  split
  next h => exact .gotoWith (keepsChannels_dmaStep_go h)
  next h => exact eq_of_dmaStep_ret h ▸ hk
  next h => exact .raise (dmaStep_ne_eTimeout h)
  · exact .stay

theorem execTxWrite_answers : leadsTo (Answers .tx s) (execTxWrite s) := by
  have hdone : Answers .tx s (s.goto .tx .twDone) := .goto (.refl s)
  unfold execTxWrite
  split
  · exact txCheck_answers s
  · exact txPlan_answers s
  · exact txStage_answers s
  · exact txFlush_answers s _ hdone _
  · exact .gotoWith (keepsChannels_txBuild s)
  · exact txFlush_answers s _ (txFlushed_answers s) _
  · exact .gotoWith (keepsChannels_logEvent _ s)
  · exact txPause_answers s
  · exact .gotoWith (keepsChannels_bufWrite _ _ _ s)
  · exact txFlush_answers s _ hdone _
  · exact .finish nofun
  · trivial

/-! ## RX commands -/

theorem execRxInit_answers : leadsTo (Answers .rx s) (execRxInit s) := by
  unfold execRxInit
  split
  · split
    · exact .raise nofun
    · split
      · exact .finish nofun
      next h => exact .raise (openEngine_ne_eTimeout h)
  · trivial

theorem execRxClose_answers : leadsTo (Answers .rx s) (execRxClose s) := by
  unfold execRxClose
  split
  · split
    · exact .finish nofun
    · exact .goto (.refl s)
  · exact .goto (keepsChannels_rx _ s)
  · split
    · exact .stay
    · exact .goto (.refl s)
  · exact .goto (keepsChannels_irqMask _ s)
  · split
    · exact .goto (keepsChannels_regWrite _ _ s)
    · exact .goto (.refl s)
  · split
    · exact .goto ((keepsChannels_irqMask _ s).trans (keepsChannels_setOpen _ _ _))
    · exact .goto (.refl s)
  · exact .finish nofun
  · trivial

theorem execRxReset_answers : leadsTo (Answers .rx s) (execRxReset s) := by
  have hwrite : ∀ r v {l}, Answers .rx s ((s.regWrite r v).goto .rx l) := fun r v _ =>
    .goto (keepsChannels_regWrite r v s)
  unfold execRxReset
  dsimp only
  split
  · split
    · exact .raise nofun
    · split
      · exact .raise nofun
      · exact .goto (.refl s)
  · exact hwrite ..
  · exact hwrite ..
  · exact hwrite ..
  · exact hwrite ..
  · exact hwrite ..
  · exact hwrite ..
  · exact .gotoWith (keepsChannels_regWrite _ _ s)
  · unfold rxWriteCoef
    dsimp only
    split
    · exact .gotoWith (keepsChannels_regWrite _ _ s)
    · exact hwrite ..
  · exact hwrite ..
  · exact hwrite ..
  · exact .finish nofun
  · trivial

theorem execRxStart_answers : leadsTo (Answers .rx s) (execRxStart s) := by
  unfold execRxStart
  split
  · split
    · exact .raise nofun
    · exact .finish nofun
  · trivial

theorem execRxStop_answers : leadsTo (Answers .rx s) (execRxStop s) := by
  unfold execRxStop
  split
  · split
    · exact .raise nofun
    · exact .goto (keepsChannels_regWrite _ _ s)
  · exact .finish nofun
  · trivial

theorem rvCheck_answers : Answers .rx s (rvCheck s) := by
  unfold rvCheck
  split
  · exact .raise nofun
  · split
    · exact .raise nofun
    · exact .goto (.refl s)

theorem rvWait_answers (p : Bool) (onWake onExpire : Label) : Answers .rx s (rvWait p onWake onExpire s) := by
  unfold rvWait
  split
  · split
    · exact .goto (.refl s)
    · exact .stay
  · split
    · exact .goto (.refl s)
    · exact .stay
  · exact .stay

theorem rvFirst_answers : Answers .rx s (rvFirst s) := by
  unfold rvFirst
  split
  · exact .finish nofun
  · exact .goto (.refl s)

theorem rvValidate_answers : Answers .rx s (rvValidate s) := by
  unfold rvValidate
  dsimp only
  split
  · exact .goto ((keepsChannels_bufReadNote _ _ _ s).trans (keepsChannels_rx _ _))
  · exact .finish (hdrStatus_ne_eTimeout _ _)

theorem rvLoop_answers : Answers .rx s (rvLoop s) := by
  unfold rvLoop
  split
  · exact .finish nofun
  · split
    · exact .finish nofun
    · exact .gotoWith (.refl s)

theorem rvLast_answers : Answers .rx s (rvLast s) := by
  unfold rvLast
  split <;> exact .finish nofun

theorem execRxReceive_answers : leadsTo (Answers .rx s) (execRxReceive s) := by
  unfold execRxReceive
  split
  · exact rvCheck_answers s
  · split
    · exact .stay
    · exact .goto (.refl s)
  · exact .goto (keepsChannels_rx _ s)
  · exact .gotoWith (.of_frame rfl)
  · exact rvWait_answers s _ _ _
  · exact rvFirst_answers s
  · exact rvValidate_answers s
  · exact rvLoop_answers s
  · exact rvWait_answers s _ _ _
  · exact rvLast_answers s
  · trivial

/-- The step of an entry ends no command (R821). -/
theorem rdEntry_answers : Answers .rx s (rdEntry s) := by
  have hnext : ∀ {u : State} x, KeepsChannels s u → Answers .rx s (rdNext x u) := fun _ hu => .gotoWith hu
  have hnote := fun o n => keepsChannels_bufReadNote .rx o n s
  unfold rdEntry
  dsimp only
  split
  · exact hnext _ (keepsChannels_setCrcStatus _ _ s)
  · split
    · exact hnext _ ((hnote _ _).trans (keepsChannels_setCrcStatus _ _ _))
    · have hcopied := fun o n o' n' a bs j v => ((hnote o n).trans ((keepsChannels_bufReadNote .rx o' n' _).trans
        (keepsChannels_writeMem .hostMem a bs _))).trans (keepsChannels_setCrcStatus j v _)
      unfold rdCopy
      dsimp only
      split
      · exact hnext _ (hcopied ..)
      · exact hnext _ ((hcopied ..).trans (keepsChannels_logEvent _ _))

theorem execRxRead_answers : leadsTo (Answers .rx s) (execRxRead s) := by
  unfold execRxRead
  split
  · split
    · exact .raise nofun
    · exact .goto (.refl s)
  · split
    · exact .stay
    · exact .goto (.refl s)
  · unfold rdStart
    dsimp only
    split
    · exact .raise nofun
    · exact .gotoWith (.refl s)
  · exact rdEntry_answers s
  · exact .finish nofun
  · trivial

end Commands

/-- No command answers `E_TIMEOUT`. -/
theorem exec_answers {i : Instr} {s t : State} (h : exec i s = .next t) : Answers i.channel s t := by
  refine leadsTo_of_next ?_ h
  cases i with
  | regRead sp => exact execRegRead_answers s sp
  | regWrite sp => exact execRegWrite_answers s sp
  | irqMask sp => exact execIrqMask_answers s sp
  | irqUnmask sp => exact execIrqUnmask_answers s sp
  | irqWait sp => exact execIrqWait_answers s sp
  | dmaOpen e => exact execDmaOpen_answers s e
  | dmaWrite e cyc cnf => exact execDmaWrite_answers s e cyc cnf
  | dmaRead e => exact execDmaRead_answers s e
  | dmaClose e => exact execDmaClose_answers s e
  | codecEncode e => exact execCodecEncode_answers s e
  | codecDecode e => exact execCodecDecode_answers s e
  | codecCrc e => exact execCodecCrc_answers s e
  | txInit => exact execTxInit_answers s
  | txReset => exact execTxReset_answers s
  | txWrite => exact execTxWrite_answers s
  | txClose => exact execTxClose_answers s
  | txSetMtu => exact execTxSetMtu_answers s
  | rxInit => exact execRxInit_answers s
  | rxReset => exact execRxReset_answers s
  | rxStart => exact execRxStart_answers s
  | rxStop => exact execRxStop_answers s
  | rxReceive => exact execRxReceive_answers s
  | rxRead => exact execRxRead_answers s
  | rxClose => exact execRxClose_answers s

end Sys2Proof.Machine
end

section
/-! SUPPORT. The receiver's own state under each agent (R161, R811, R830 to R836): what the worker's code and its count of
timeouts become, and which agents leave the receiver alone. -/

namespace Sys2Proof.Machine

/-! ## The parts of the receiver -/

/-- The worker, the state of engine RX, the reassembler and the configuration. -/
def State.receiver (s : State) : Worker × Bool × Reassembler × Config := (s.worker, s.openRx, s.rx, s.cfg)

@[simp] theorem State.receiver_setChan (s : State) (c : Channel) (x : Chan) : (s.setChan c x).receiver = s.receiver := by
  cases c <;> rfl

theorem State.receiver_setDmac (s : State) (e : Engine) (d : Dmac) : (s.setDmac e d).receiver = s.receiver := by
  cases e <;> rfl

theorem State.receiver_eq {s t : State} (h : t.receiver = s.receiver) :
    t.worker = s.worker ∧ t.openRx = s.openRx ∧ t.rx = s.rx ∧ t.cfg = s.cfg := by
  simpa only [State.receiver, Prod.mk.injEq] using h

theorem hostStep_receiver {a : HostAct} {s t : State} (h : hostStep a s = .next t) : t.receiver = s.receiver := by
  cases a with
  | writeArg c i v =>
    simp only [hostStep] at h
    split at h <;> cases h
    · rfl
    · exact State.receiver_setChan ..
  | issue w =>
    cases h
    rcases s.issue_cases w with ⟨i, -, -, hi⟩ | ⟨st, hi⟩ <;> rw [hi]
    · exact State.receiver_setChan ..
    · rfl
  | readReg r =>
    simp only [hostStep] at h
    split at h <;> cases h <;> rfl
  | readMem a n =>
    simp only [hostStep] at h
    split at h <;> cases h
    rfl
  | writeMem a bs =>
    simp only [hostStep] at h
    split at h <;> cases h
    rfl

theorem dmacStep_receiver (e : Engine) (s : State) : (dmacStep e s).receiver = s.receiver := by
  have hdrop : ∀ rest, (dropWild e rest s).receiver = s.receiver := fun rest => by cases e <;> rfl
  unfold dmacStep
  dsimp only
  split
  · rfl
  · split
    · rfl
    · split
      · exact State.receiver_setDmac ..
      · cases e with
        | tx =>
          dsimp only
          split
          · rfl
          · split
            · rfl
            · exact hdrop _
        | rx =>
          dsimp only
          split
          · rfl
          · split
            · rw [completeRx_frame]
              rfl
            · exact hdrop _

theorem modemRxStep_receiver (len : U32) (f : List Byte) (s : State) : (modemRxStep len f s).receiver = s.receiver := by
  unfold modemRxStep
  split <;> rfl

/-- A command of another channel leaves the receiver alone (R180). -/
theorem exec_receiver_other {i : Instr} {s t : State} (h : exec i s = .next t) (hi : i.channel ≠ .rx) :
    t.receiver = s.receiver := by
  rcases exec_writesOnly h with ⟨-, hp⟩ | ⟨hx, -⟩ | ⟨-, hp⟩
  · rw [writesOnlyTx_frame hp]
    rfl
  · exact absurd hx hi
  · rw [writesOnlyBus_frame hp]
    rfl

/-! ## The worker's code and its count of timeouts, under the commands (R801, R811) -/

/-- `worker_ret` and the number of timeouts counted against the budget. -/
def State.workerCode (s : State) : U32 × Nat := (s.rx.workerRet, s.rx.tmoCount)

theorem State.workerCode_of_receiver {s t : State} (h : t.receiver = s.receiver) : t.workerCode = s.workerCode := by
  obtain ⟨-, -, hrx, -⟩ := State.receiver_eq h
  rw [State.workerCode, hrx]
  rfl

theorem execRxInit_workerCode (s : State) :
    leadsTo (fun t => t.workerCode = s.workerCode ∨ t.workerCode = (0#32, 0)) (execRxInit s) := by
  unfold execRxInit
  split
  · split
    · exact .inl rfl
    · split
      · exact .inr rfl
      next h =>
        refine .inl ?_
        rcases openEngine_cases h with rfl | rfl <;> rfl
  · trivial

theorem workerCode_rvWait (p : Bool) (onWake onExpire : Label) (s : State) :
    (rvWait p onWake onExpire s).workerCode = s.workerCode := by
  unfold rvWait
  split
  · split <;> rfl
  · split <;> rfl
  · rfl

theorem workerCode_rvCheck (s : State) : (rvCheck s).workerCode = s.workerCode := by
  unfold rvCheck
  split
  · rfl
  · split <;> rfl

theorem workerCode_rvFirst (s : State) : (rvFirst s).workerCode = s.workerCode := by
  unfold rvFirst
  split <;> rfl

theorem workerCode_rvValidate (s : State) : (rvValidate s).workerCode = s.workerCode := by
  unfold rvValidate
  dsimp only
  split <;> rfl

theorem workerCode_rvLoop (s : State) : (rvLoop s).workerCode = s.workerCode := by
  unfold rvLoop
  split
  · rfl
  · split <;> rfl

theorem workerCode_rvLast (s : State) : (rvLast s).workerCode = s.workerCode := by
  unfold rvLast
  split <;> rfl

/-- RX.RECEIVE clears the code at RV3 and leaves it alone elsewhere (R811). -/
theorem execRxReceive_workerCode (s : State) :
    leadsTo (fun t => t.workerCode = s.workerCode ∨ t.workerCode = (0#32, 0)) (execRxReceive s) := by
  unfold execRxReceive
  split
  · exact .inl (workerCode_rvCheck s)
  · split <;> exact .inl rfl
  · exact .inr rfl
  · exact .inl rfl
  · exact .inl (workerCode_rvWait _ _ _ s)
  · exact .inl (workerCode_rvFirst s)
  · exact .inl (workerCode_rvValidate s)
  · exact .inl (workerCode_rvLoop s)
  · exact .inl (workerCode_rvWait _ _ _ s)
  · exact .inl (workerCode_rvLast s)
  · trivial

/-- A command leaves the worker's code, or clears it (R801, R811). -/
theorem exec_workerCode {i : Instr} {s t : State} (h : exec i s = .next t) :
    t.workerCode = s.workerCode ∨ t.workerCode = (0#32, 0) := by
  by_cases hc : i.channel = .rx
  · rcases exec_writesOnly h with ⟨hx, -⟩ | ⟨-, hp⟩ | ⟨hx, -⟩
    · cases hc.symm.trans hx
    · cases i with
      | rxInit => exact leadsTo_of_next (execRxInit_workerCode s) h
      | rxReceive => exact leadsTo_of_next (execRxReceive_workerCode s) h
      | dmaOpen _ | dmaWrite _ _ _ | codecEncode _ | codecDecode _ | codecCrc _ | rxRead =>
        refine .inl ?_
        rw [hp]
        rfl
      | dmaRead _ | dmaClose _ | rxReset | rxStart | rxStop | rxClose =>
        refine .inl ?_
        rw [hp.1]
        rfl
      | _ => exact False.elim hp
    · cases hc.symm.trans hx
  · exact .inl (State.workerCode_of_receiver (exec_receiver_other h hc))

/-! ## The steps of the worker (R830 to R836) -/

/-- How a step of the worker leaves the receiver: it goes on with its code untouched, and its timeouts within the budget
if they were; or it ends the cycle with a code that is not `E_TIMEOUT`. -/
inductive WorkerGoes (s t : State) : Prop
  | on (hret : t.rx.workerRet = s.rx.workerRet)
      (hbudget : s.rx.tmoCount ≤ s.cfg.rxIrqRetries → t.rx.tmoCount ≤ s.cfg.rxIrqRetries)
  | fails (st : Status) (hst : st ≠ .eTimeout) (hpc : t.worker.pc = .wx) (hret : t.rx.workerRet = st.code)

theorem WorkerGoes.of_rx {s t : State} (h : t.rx = s.rx) : WorkerGoes s t := .on (by rw [h]) (by rw [h]; exact id)

theorem WorkerGoes.fatal {s u : State} {st : Status} (hst : st ≠ .eTimeout) : WorkerGoes s (u.fatal st) :=
  .fails st hst rfl rfl

theorem wTimeout_goes (s : State) : WorkerGoes s (wTimeout s) := by
  unfold wTimeout
  split
  · dsimp only
    split
    · exact .fatal nofun
    next hlate => exact .on rfl fun _ => Nat.le_of_not_lt hlate
  · exact .of_rx rfl

theorem wWoke_goes (s : State) : WorkerGoes s (wWoke s) := by
  unfold wWoke
  split
  · exact .of_rx rfl
  · split
    · exact .fatal nofun
    · exact wTimeout_goes s
    · exact .of_rx rfl

theorem wWait_rx (s : State) : (wWait s).rx = s.rx := by
  unfold wWait
  split
  · rfl
  next h => rcases State.irqWait_eq_some h with ⟨-, -, -, rfl⟩ | ⟨-, -, -, rfl⟩ | ⟨-, -, -, rfl⟩ <;> rfl

theorem wRead_goes (l : DmaLabel) (s : State) : WorkerGoes s (wRead l s) := by
  unfold wRead
  split
  next h =>
    have hk := dmaStep_keeps .rx l s.worker.dma s
    rw [h] at hk
    refine .of_rx ?_
    rw [hk.1.eq_frame]
  next h => exact eq_of_dmaStep_ret h ▸ .of_rx rfl
  · exact .fatal nofun
  next h => exact .fatal (dmaStep_ne_eTimeout h)
  · exact .of_rx rfl

theorem workerStep_goes (s : State) : WorkerGoes s (workerStep s) := by
  unfold workerStep
  split
  · exact .of_rx rfl
  · split <;> exact .of_rx rfl
  · exact .of_rx rfl
  · exact .of_rx (wWait_rx s)
  · exact wWoke_goes s
  · unfold wLength
    dsimp only
    split
    · exact .fatal nofun
    · exact .of_rx rfl
  · unfold wPlace
    split
    · exact .fatal nofun
    · exact .of_rx rfl
  · exact wRead_goes _ s
  · unfold wPublish
    split
    · exact .of_rx rfl
    · exact .on rfl fun _ => Nat.zero_le _
  · exact .of_rx rfl

/-! ## E_TIMEOUT (R511) -/

namespace State.NeverTimeout

variable {s t : State}

theorem congr (h : s.NeverTimeout) (hc : ∀ c, (t.chan c).status = (s.chan c).status) (hx : t.rx = s.rx) :
    t.NeverTimeout where
  status c := by
    rw [hc]
    exact h.status c
  workerRet := by
    rw [hx]
    exact h.workerRet

theorem of_exec {i : Instr} (hs : s.NeverTimeout) (h : exec i s = .next t) : t.NeverTimeout where
  status c := by
    by_cases hc : c = i.channel
    · subst hc
      exact (exec_answers h).ne_eTimeout (hs.status _)
    · rw [(exec_steps h).others c hc]
      exact hs.status c
  workerRet := by
    rcases exec_workerCode h with hk | hk
    · have hret : t.rx.workerRet = s.rx.workerRet := congrArg Prod.fst hk
      rw [hret]
      exact hs.workerRet
    · have hret : t.rx.workerRet = 0#32 := congrArg Prod.fst hk
      rw [hret]
      decide

theorem of_workerStep (hs : s.NeverTimeout) : (workerStep s).NeverTimeout where
  status c := by
    rw [(keepsChannels_workerStep s).chan]
    exact hs.status c
  workerRet := by
    rcases workerStep_goes s with ⟨hret, -⟩ | ⟨st, hst, -, hret⟩ <;> rw [hret]
    · exact hs.workerRet
    · exact Status.code_ne_eTimeout hst

/-- No action of the host touches a `STATUS` (R17, R101). -/
theorem status_hostStep {a : HostAct} (h : hostStep a s = .next t) (c : Channel) :
    (t.chan c).status = (s.chan c).status := by
  have hset : ∀ (c' : Channel) (x : Chan), x.status = (s.chan c').status →
      ((s.setChan c' x).chan c).status = (s.chan c).status := fun c' x hx => by
    by_cases hc : c = c'
    · subst hc
      rw [State.chan_setChan_same, hx]
    · rw [State.chan_setChan_other _ _ _ _ hc]
  rcases hostStep_eq_next h with ⟨c', args, rfl⟩ | ⟨w, rfl⟩ | hk
  · exact hset c' _ rfl
  · rcases s.issue_cases w with ⟨i, -, -, hi⟩ | ⟨st, hi⟩ <;> rw [hi]
    · exact (congrArg Chan.status ((keepsChannels_issueStatus _ _).chan c)).trans (hset _ _ rfl)
    · exact congrArg Chan.status ((keepsChannels_issueStatus _ _).chan c)
  · rw [hk.chan]

theorem of_moveBody {m : Move} (hs : s.NeverTimeout) (h : moveBody m s = .next t) : t.NeverTimeout := by
  cases m with
  | host a =>
    obtain ⟨-, -, hrx, -⟩ := State.receiver_eq (hostStep_receiver h)
    exact hs.congr (status_hostStep h) hrx
  | channel c p =>
    have hs' : ({ s with pick := p } : State).NeverTimeout := hs.congr (fun c => by cases c <;> rfl) rfl
    rcases channelStep_eq_next h with ⟨-, rfl⟩ | ⟨-, i, -, -, hi⟩
    · exact hs'
    · exact hs'.of_exec hi
  | worker p =>
    cases h
    exact of_workerStep (hs.congr (fun c => by cases c <;> rfl) rfl)
  | dmac e =>
    cases h
    obtain ⟨-, -, hrx, -⟩ := State.receiver_eq (dmacStep_receiver e s)
    exact hs.congr (fun c => congrArg Chan.status ((keepsChannels_dmacStep e s).chan c)) hrx
  | modemRx len f =>
    cases h
    obtain ⟨-, -, hrx, -⟩ := State.receiver_eq (modemRxStep_receiver len f s)
    exact hs.congr (fun c => congrArg Chan.status ((keepsChannels_modemRxStep len f s).chan c)) hrx
  | modemTx =>
    cases h
    exact hs
  | clock =>
    cases h
    exact hs.congr (fun c => by cases c <;> rfl) rfl
  | reset =>
    cases h
    have hok : (0#32 : U32) ≠ Status.eTimeout.code := by decide
    exact ⟨fun c => by cases c <;> exact hok, hok⟩

end State.NeverTimeout

/-- Settles O13: the returns of the DMA procedures by `dmaStep_status`, the machine by what its agents answer. -/
theorem timeoutStatusNeverProduced : Obligations.TimeoutStatusNeverProduced := by
  unfold Obligations.TimeoutStatusNeverProduced
  refine ⟨fun _ _ _ _ _ _ _ h => dmaStep_ne_eTimeout h, fun s t hs h => ?_⟩
  obtain ⟨u, hu, rfl⟩ := act_eq_next (step_eq_next h).2
  have hs' : s.nextMove.2.NeverTimeout := by
    rw [State.nextMove_frame]
    exact hs.congr (fun c => by cases c <;> rfl) rfl
  exact (hs'.of_moveBody hu).congr (fun c => by cases c <;> rfl) rfl

end Sys2Proof.Machine
end

section
/-! SUPPORT. The worker's ownership of engine RX and its health under every move (R110, R161, R513, R810, R830, R831, R836):
while the worker lives no command gets where it would need it dead. -/

namespace Sys2Proof.Machine

/-! ## The rules -/

/-- The labels of RX.RECEIVE between its entry checks and the spawning of the worker. -/
def Label.arming : Label → Bool
  | .rv2 | .rv3 | .rv4 => true
  | _ => false

theorem Label.arming_iff (p : Label) : p.arming = true ↔ p = .rv2 ∨ p = .rv3 ∨ p = .rv4 := by
  cases p <;> simp [Label.arming]

/-- Whom engine RX belongs to: the worker, and whether the engine and the reassembler are open. -/
def State.ownership (s : State) : Worker × Bool × Bool := (s.worker, s.openRx, s.rx.inited)

theorem State.ownership_eq {s t : State} (h : t.ownership = s.ownership) :
    t.worker = s.worker ∧ t.openRx = s.openRx ∧ t.rx.inited = s.rx.inited := by
  simpa only [State.ownership, Prod.mk.injEq] using h

namespace State.WorkerOwns

variable {s t : State}

/-- The consumer moves to a label that asks for nothing, and the rest stays. -/
theorem relabel (h : s.WorkerOwns) (hv : t.ownership = s.ownership)
    (hpc : t.chRx.pc = s.chRx.pc ∨ t.chRx.pc.needsDeadWorker = false ∧ t.chRx.pc.arming = false) : t.WorkerOwns := by
  obtain ⟨hw, ho, hi⟩ := State.ownership_eq hv
  have halive := h.openWhileAlive
  rw [← hw, ← ho, ← hi] at halive
  rcases hpc with hpc | ⟨hneeds, harms⟩
  · have hdead := h.deadWhereNeeded
    have harm := h.openWhileArming
    rw [← hw, ← hpc] at hdead
    rw [← hpc, ← ho, ← hi] at harm
    exact ⟨hdead, halive, harm⟩
  · exact ⟨fun hn => absurd hn (by simp [hneeds]), halive,
      fun ha => absurd ((Label.arming_iff _).2 ha) (by simp [harms])⟩

/-- With the worker dead only the arming labels ask for anything. -/
theorem of_dead (hd : t.worker.pc = .dead) (harm : t.chRx.pc.arming = true → t.openRx = true ∧ t.rx.inited = true) :
    t.WorkerOwns :=
  ⟨fun _ => hd, fun ha => absurd hd ha, fun ha => harm ((Label.arming_iff _).2 ha)⟩

end State.WorkerOwns

/-! ## While the worker lives -/

/-- A step of CH_RX that leaves engine RX to a living worker: it goes to no label that relies on a dead one. -/
def LeavesToWorker (s t : State) : Prop := t.chRx.pc.needsDeadWorker = false ∧ t.ownership = s.ownership

section Alive

variable {s : State} (ho : s.WorkerOwns) (hw : s.worker.pc ≠ .dead)
include ho hw

/-- The consumer stands at no label that relies on a dead worker. -/
theorem needsDeadWorker_of_alive : s.chRx.pc.needsDeadWorker = false :=
  Bool.eq_false_iff.2 fun h => hw (ho.deadWhereNeeded h)

theorem not_at_of_alive {p : Label} (hpc : s.chRx.pc = p) (hp : p.needsDeadWorker = true) : False :=
  hw (ho.deadWhereNeeded (by rw [hpc, hp]))

theorem LeavesToWorker.stay : LeavesToWorker s s := ⟨needsDeadWorker_of_alive ho hw, rfl⟩

theorem execDmaOpen_alive : leadsTo (LeavesToWorker s) (execDmaOpen .rx s) := by
  have hopen : s.openEngine .rx = (.ok, s) := openEngine_opened (ho.openWhileAlive hw).1
  unfold execDmaOpen
  rw [hopen]
  split
  · exact ⟨rfl, rfl⟩
  · trivial

omit ho hw in
theorem execDmaWrite_rx_alive (cyc cnf : Bool) : leadsTo (LeavesToWorker s) (execDmaWrite .rx cyc cnf s) := by
  unfold execDmaWrite
  split
  · exact ⟨rfl, rfl⟩
  · trivial

theorem execDmaRead_alive : leadsTo (LeavesToWorker s) (execDmaRead .rx s) := by
  unfold execDmaRead
  split
  next l hpc =>
    by_cases hl : l = .d1
    · rw [if_neg nofun, if_pos ⟨hl, workerAlive_eq_true hw⟩]
      exact ⟨rfl, rfl⟩
    · exact (not_at_of_alive ho hw hpc (decide_eq_true hl)).elim
  · trivial

theorem execDmaClose_alive : leadsTo (LeavesToWorker s) (execDmaClose .rx s) := by
  unfold execDmaClose
  split
  · rw [if_pos ⟨rfl, workerAlive_eq_true hw⟩]
    exact ⟨rfl, rfl⟩
  next hpc => exact (not_at_of_alive ho hw hpc rfl).elim
  · trivial

theorem execCodecEncode_alive : leadsTo (LeavesToWorker s) (execCodecEncode .rx s) := by
  unfold execCodecEncode
  split
  · unfold encodeFetch
    rw [codecGuard_eq_busy rfl hw]
    exact ⟨rfl, rfl⟩
  next hpc => exact (not_at_of_alive ho hw hpc rfl).elim
  · trivial

theorem execCodecDecode_alive : leadsTo (LeavesToWorker s) (execCodecDecode .rx s) := by
  unfold execCodecDecode
  split
  · unfold decodeFetch
    rw [codecGuard_eq_busy rfl hw]
    exact ⟨rfl, rfl⟩
  next hpc => exact (not_at_of_alive ho hw hpc rfl).elim
  · trivial

omit ho in
theorem execCodecCrc_alive : leadsTo (LeavesToWorker s) (execCodecCrc .rx s) := by
  unfold execCodecCrc
  dsimp only
  split
  · rw [codecGuard_eq_busy rfl hw]
    exact ⟨rfl, rfl⟩
  · trivial

omit ho in
theorem execRxInit_alive : leadsTo (LeavesToWorker s) (execRxInit s) := by
  unfold execRxInit
  rw [workerAlive_eq_true hw]
  split
  · exact ⟨rfl, rfl⟩
  · trivial

theorem execRxReset_alive : leadsTo (LeavesToWorker s) (execRxReset s) := by
  unfold execRxReset
  rw [workerAlive_eq_true hw]
  dsimp only
  split
  · split <;> exact ⟨rfl, rfl⟩
  iterate 11 next hpc => exact (not_at_of_alive ho hw hpc rfl).elim
  · trivial

omit ho hw in
theorem execRxStart_alive : leadsTo (LeavesToWorker s) (execRxStart s) := by
  unfold execRxStart
  split
  · split <;> exact ⟨rfl, rfl⟩
  · trivial

omit ho hw in
theorem execRxStop_alive : leadsTo (LeavesToWorker s) (execRxStop s) := by
  unfold execRxStop
  split
  · split <;> exact ⟨rfl, rfl⟩
  · exact ⟨rfl, rfl⟩
  · trivial

omit ho hw in
theorem rvWait_leaves {p : Bool} {onWake onExpire : Label} (hs : s.chRx.pc.needsDeadWorker = false)
    (hwake : onWake.needsDeadWorker = false) (hexpire : onExpire.needsDeadWorker = false) :
    LeavesToWorker s (rvWait p onWake onExpire s) := by
  unfold rvWait
  split
  · split
    · exact ⟨hwake, rfl⟩
    · exact ⟨hs, rfl⟩
  · split
    · exact ⟨hexpire, rfl⟩
    · exact ⟨hs, rfl⟩
  · exact ⟨hs, rfl⟩

theorem execRxReceive_alive : leadsTo (LeavesToWorker s) (execRxReceive s) := by
  have hfree := needsDeadWorker_of_alive ho hw
  unfold execRxReceive
  split
  · unfold rvCheck
    split
    · exact ⟨rfl, rfl⟩
    · split <;> exact ⟨rfl, rfl⟩
  · rw [workerAlive_eq_true hw]
    exact .stay ho hw
  next hpc => exact (not_at_of_alive ho hw hpc rfl).elim
  next hpc => exact (not_at_of_alive ho hw hpc rfl).elim
  · exact rvWait_leaves hfree rfl rfl
  · unfold rvFirst
    split <;> exact ⟨rfl, rfl⟩
  · unfold rvValidate
    dsimp only
    split <;> exact ⟨rfl, rfl⟩
  · unfold rvLoop
    split
    · exact ⟨rfl, rfl⟩
    · split <;> exact ⟨rfl, rfl⟩
  · exact rvWait_leaves hfree rfl rfl
  · unfold rvLast
    split <;> exact ⟨rfl, rfl⟩
  · trivial

theorem execRxRead_alive : leadsTo (LeavesToWorker s) (execRxRead s) := by
  unfold execRxRead
  split
  · split <;> exact ⟨rfl, rfl⟩
  · rw [workerAlive_eq_true hw]
    exact .stay ho hw
  iterate 3 next hpc => exact (not_at_of_alive ho hw hpc rfl).elim
  · trivial

theorem execRxClose_alive : leadsTo (LeavesToWorker s) (execRxClose s) := by
  unfold execRxClose
  split
  · split <;> exact ⟨rfl, rfl⟩
  · exact ⟨rfl, rfl⟩
  · rw [workerAlive_eq_true hw]
    exact .stay ho hw
  iterate 4 next hpc => exact (not_at_of_alive ho hw hpc rfl).elim
  · trivial

/-- No command of CH_RX takes anything from a living worker (R513). -/
theorem exec_alive {i : Instr} {t : State} (hc : i.channel = .rx) (h : exec i s = .next t) : LeavesToWorker s t := by
  have he : ∀ {e : Engine}, e.channel = .rx → e = .rx := fun {e} he => by cases e <;> first | rfl | cases he
  refine leadsTo_of_next ?_ h
  cases i with
  | dmaOpen e => exact he hc ▸ execDmaOpen_alive ho hw
  | dmaWrite e cyc cnf => exact he hc ▸ execDmaWrite_rx_alive cyc cnf
  | dmaRead e => exact he hc ▸ execDmaRead_alive ho hw
  | dmaClose e => exact he hc ▸ execDmaClose_alive ho hw
  | codecEncode e => exact he hc ▸ execCodecEncode_alive ho hw
  | codecDecode e => exact he hc ▸ execCodecDecode_alive ho hw
  | codecCrc e => exact he hc ▸ execCodecCrc_alive hw
  | rxInit => exact execRxInit_alive hw
  | rxReset => exact execRxReset_alive ho hw
  | rxStart => exact execRxStart_alive
  | rxStop => exact execRxStop_alive
  | rxReceive => exact execRxReceive_alive ho hw
  | rxRead => exact execRxRead_alive ho hw
  | rxClose => exact execRxClose_alive ho hw
  | _ => cases hc

end Alive

end Sys2Proof.Machine
end

section
/-! SUPPORT. The worker's ownership and health, move by move, from what a living worker is left (R110, R161, R513, R810, R811,
R830, R831, R836). -/

namespace Sys2Proof.Machine

/-! ## RX.RECEIVE with a dead worker (R810, R811) -/

section Receive

variable {s : State} (ho : s.WorkerOwns)
include ho

omit ho in
/-- The entry checks find the engine and the reassembler open. -/
theorem rvCheck_workerOwns (hd : s.worker.pc = .dead) : (rvCheck s).WorkerOwns := by
  unfold rvCheck
  split
  · exact .of_dead hd nofun
  next hopen =>
    rw [not_or, Bool.not_eq_false, Bool.not_eq_false] at hopen
    obtain ⟨hinit, hrx⟩ := hopen
    split
    · exact .of_dead hd nofun
    · exact .of_dead hd fun _ => ⟨hrx, hinit⟩

theorem rvWait_workerOwns {p : Bool} {onWake onExpire : Label} (hd : s.worker.pc = .dead) (hwake : onWake.arming = false)
    (hexpire : onExpire.arming = false) : (rvWait p onWake onExpire s).WorkerOwns := by
  have hgoto : ∀ {l : Label}, l.arming = false → (s.goto .rx l).WorkerOwns := fun hl =>
    .of_dead hd fun ha => (Bool.false_ne_true (hl.symm.trans ha)).elim
  unfold rvWait
  split
  · split
    · exact hgoto hwake
    · exact ho
  · split
    · exact hgoto hexpire
    · exact ho
  · exact ho

/-- The worker is spawned with the engine and the reassembler open. -/
theorem rvSpawn_workerOwns (hpc : s.chRx.pc = .rv4) : (rvSpawn s).WorkerOwns :=
  ⟨nofun, fun _ => ho.openWhileArming (.inr (.inr hpc)), nofun⟩

theorem execRxReceive_workerOwns (hd : s.worker.pc = .dead) : leadsTo State.WorkerOwns (execRxReceive s) := by
  unfold execRxReceive
  split
  · exact rvCheck_workerOwns hd
  next hpc =>
    split
    · exact ho
    · exact .of_dead hd fun _ => ho.openWhileArming (.inl hpc)
  next hpc => exact .of_dead hd fun _ => ho.openWhileArming (.inr (.inl hpc))
  next hpc => exact rvSpawn_workerOwns ho hpc
  · exact rvWait_workerOwns ho hd rfl rfl
  · unfold rvFirst
    split <;> exact .of_dead hd nofun
  · unfold rvValidate
    dsimp only
    split <;> exact .of_dead hd nofun
  · unfold rvLoop
    split
    · exact .of_dead hd nofun
    · split <;> exact .of_dead hd nofun
  · exact rvWait_workerOwns ho hd rfl rfl
  · unfold rvLast
    split <;> exact .of_dead hd nofun
  · trivial

end Receive

/-! ## Every command -/

section Commands

variable {i : Instr} {s t : State}

/-- Only RX.RECEIVE stands at an arming label. -/
theorem eq_rxReceive_of_arming {p : Label} (h : ownLabel i p = true) (hp : p.arming = true) : i = .rxReceive := by
  rcases (Label.arming_iff p).1 hp with rfl | rfl | rfl <;> cases i <;> first | rfl | cases h

theorem exec_not_arming (hi : i ≠ .rxReceive) (hc : i.channel = .rx) (h : exec i s = .next t) :
    t.chRx.pc.arming = false := by
  have hthere := (exec_steps h).there
  rw [hc] at hthere
  rcases hthere with ⟨-, hidle⟩ | ⟨-, hl⟩
  · exact (congrArg Label.arming hidle :)
  · exact Bool.eq_false_iff.2 fun ha => hi (eq_rxReceive_of_arming hl ha)

theorem exec_workerOwns (ho : s.WorkerOwns) (h : exec i s = .next t) : t.WorkerOwns := by
  by_cases hc : i.channel = .rx
  · by_cases hd : s.worker.pc = .dead
    · by_cases hi : i = .rxReceive
      · subst hi
        exact leadsTo_of_next (execRxReceive_workerOwns ho hd) h
      · refine .of_dead (by rw [exec_worker h hi, hd]) fun ha => ?_
        rw [exec_not_arming hi hc h] at ha
        cases ha
    · obtain ⟨hneeds, hv⟩ := exec_alive ho hd hc h
      obtain ⟨hw, hopen, hinit⟩ := State.ownership_eq hv
      have halive : t.openRx = true ∧ t.rx.inited = true := by
        rw [hopen, hinit]
        exact ho.openWhileAlive hd
      exact ⟨fun hn => absurd hn (by simp [hneeds]), fun _ => halive, fun _ => halive⟩
  · obtain ⟨hw, hopen, hrx, -⟩ := State.receiver_eq (exec_receiver_other h hc)
    exact ho.congr (congrArg Chan.pc ((exec_steps h).others .rx (Ne.symm hc))) hw hopen hrx

/-! ## The worker's health under the commands -/

/-- A step that leaves the worker, and its code too or clears it. -/
theorem State.WorkerHealthy.of_code (h : s.WorkerHealthy) (hcfg : t.cfg = s.cfg) (hw : t.worker = s.worker)
    (hcode : t.workerCode = s.workerCode ∨ t.workerCode = (0#32, 0))
    (harmed : t.chRx.pc = .rv4 → t.workerCode = (0#32, 0)) : t.WorkerHealthy := by
  have hparts : ∀ {r n}, t.workerCode = (r, n) → t.rx.workerRet = r ∧ t.rx.tmoCount = n := fun hrn =>
    ⟨congrArg Prod.fst hrn, congrArg Prod.snd hrn⟩
  constructor
  · intro hd hx
    rw [hw] at hd hx
    rcases hcode with hk | hk
    · rw [(hparts hk).1]
      exact h.codeZero hd hx
    · exact (hparts hk).1
  · intro hd hx
    rw [hw] at hd hx
    rw [hcfg]
    rcases hcode with hk | hk
    · rw [(hparts hk).2]
      exact h.budget hd hx
    · rw [(hparts hk).2]
      exact Nat.zero_le _
  · exact fun hpc => hparts (harmed hpc)

/-- The consumer reaches RV4 from RV3 only, with the code cleared (R811). -/
theorem execRxReceive_armed (s : State) :
    leadsTo (fun t => t.chRx.pc = .rv4 → t.workerCode = (0#32, 0)) (execRxReceive s) := by
  have hwait : ∀ {p onWake onExpire l}, s.chRx.pc = l → l ≠ .rv4 → onWake ≠ .rv4 → onExpire ≠ .rv4 →
      (rvWait p onWake onExpire s).chRx.pc ≠ .rv4 := fun hpc hl hwake hexpire => by
    rw [← hpc] at hl
    unfold rvWait
    split
    · split
      · exact hwake
      · exact hl
    · split
      · exact hexpire
      · exact hl
    · exact hl
  unfold execRxReceive
  split
  · unfold rvCheck
    split
    · nofun
    · split <;> nofun
  next hpc =>
    split
    · exact fun h => nomatch hpc.symm.trans h
    · nofun
  · exact fun _ => rfl
  · nofun
  next hpc => exact fun h => absurd h (hwait hpc nofun nofun nofun)
  · unfold rvFirst
    split <;> nofun
  · unfold rvValidate
    dsimp only
    split <;> nofun
  · unfold rvLoop
    split
    · nofun
    · split <;> nofun
  next hpc => exact fun h => absurd h (hwait hpc nofun nofun nofun)
  · unfold rvLast
    split <;> nofun
  · trivial

theorem rvSpawn_workerHealthy (h : s.WorkerHealthy) (hpc : s.chRx.pc = .rv4) : (rvSpawn s).WorkerHealthy := by
  obtain ⟨hret, htmo⟩ := h.armed hpc
  exact ⟨fun _ _ => hret, fun _ _ => (Nat.le_of_eq htmo).trans (Nat.zero_le _), nofun⟩

theorem exec_workerHealthy (hs : s.WorkerHealthy) (h : exec i s = .next t) : t.WorkerHealthy := by
  have hcfg : t.cfg = s.cfg := by rw [exec_common_frame h]
  by_cases hi : i = .rxReceive
  · subst hi
    have harmed := leadsTo_of_next (execRxReceive_armed s) h
    rcases leadsTo_of_next (execRxReceive_tableView s) h with hv | ⟨-, rfl⟩ | ⟨hpc, rfl⟩
    · exact hs.of_code hcfg (State.worker_of_tableView hv) (exec_workerCode h) harmed
    · exact hs.of_code hcfg rfl (.inr rfl) harmed
    · exact rvSpawn_workerHealthy hs hpc
  · refine hs.of_code hcfg (exec_worker h hi) (exec_workerCode h) fun h4 => ?_
    rcases exec_chRx_pc hi h with hpc | ⟨hne, -⟩
    · obtain ⟨hret, htmo⟩ := hs.armed (hpc.symm.trans h4)
      rcases exec_workerCode h with hk | hk
      · rw [hk, State.workerCode, hret, htmo]
      · exact hk
    · exact absurd h4 hne

end Commands

/-! ## The worker -/

section Worker

variable {s : State}

theorem workerStep_dead (h : s.worker.pc = .dead) : workerStep s = s := by simp only [workerStep, h]

/-- A worker that has ended its cycle dies, and stays dead (R830, R837). -/
theorem workerStep_halts (h : s.worker.pc = .dead ∨ s.worker.pc = .wx) : (workerStep s).worker.pc = .dead := by
  rcases h with h | h
  · rw [workerStep_dead h, h]
  · simp only [workerStep, h]
    rfl

/-- No step of the worker opens or closes anything. -/
def KeepsOpened (s t : State) : Prop := t.openRx = s.openRx ∧ t.rx.inited = s.rx.inited

theorem keepsOpened_wRead (l : DmaLabel) (s : State) : KeepsOpened s (wRead l s) := by
  unfold wRead
  split
  next h =>
    have hk := dmaStep_keeps .rx l s.worker.dma s
    rw [h] at hk
    rw [hk.1.eq_frame]
    exact ⟨rfl, rfl⟩
  next h => exact eq_of_dmaStep_ret h ▸ ⟨rfl, rfl⟩
  next h => exact eq_of_dmaStep_ret h ▸ ⟨rfl, rfl⟩
  next h => exact eq_of_dmaStep_ret h ▸ ⟨rfl, rfl⟩
  · exact ⟨rfl, rfl⟩

theorem keepsOpened_wWoke (s : State) : KeepsOpened s (wWoke s) := by
  unfold wWoke
  split
  · exact ⟨rfl, rfl⟩
  · split
    · exact ⟨rfl, rfl⟩
    · unfold wTimeout
      split
      · dsimp only
        split <;> exact ⟨rfl, rfl⟩
      · exact ⟨rfl, rfl⟩
    · exact ⟨rfl, rfl⟩

theorem keepsOpened_wWait (s : State) : KeepsOpened s (wWait s) := by
  unfold wWait
  split
  · exact ⟨rfl, rfl⟩
  next h => rcases State.irqWait_eq_some h with ⟨-, -, -, rfl⟩ | ⟨-, -, -, rfl⟩ | ⟨-, -, -, rfl⟩ <;> exact ⟨rfl, rfl⟩

theorem keepsOpened_workerStep (s : State) : KeepsOpened s (workerStep s) := by
  unfold workerStep
  split
  · exact ⟨rfl, rfl⟩
  · split <;> exact ⟨rfl, rfl⟩
  · exact ⟨rfl, rfl⟩
  · exact keepsOpened_wWait s
  · exact keepsOpened_wWoke s
  · unfold wLength
    dsimp only
    split <;> exact ⟨rfl, rfl⟩
  · unfold wPlace
    split <;> exact ⟨rfl, rfl⟩
  · exact keepsOpened_wRead _ s
  · unfold wPublish
    split <;> exact ⟨rfl, rfl⟩
  · exact ⟨rfl, rfl⟩

theorem workerStep_pc (s : State) : (workerStep s).chRx.pc = s.chRx.pc :=
  congrArg Chan.pc ((keepsChannels_workerStep s).chan .rx)

theorem workerStep_workerOwns (ho : s.WorkerOwns) : (workerStep s).WorkerOwns := by
  obtain ⟨hopen, hinit⟩ := keepsOpened_workerStep s
  constructor
  · rw [workerStep_pc]
    exact fun hn => workerStep_halts (.inl (ho.deadWhereNeeded hn))
  · rw [hopen, hinit]
    exact fun ha => ho.openWhileAlive fun hd => ha (workerStep_halts (.inl hd))
  · rw [workerStep_pc, hopen, hinit]
    exact ho.openWhileArming

theorem workerStep_workerHealthy (ho : s.WorkerOwns) (h : s.WorkerHealthy) : (workerStep s).WorkerHealthy := by
  have hcfg : (workerStep s).cfg = s.cfg := (keepsChannels_workerStep s).grows.cfg
  have hworks : (workerStep s).worker.pc ≠ .dead → s.worker.pc ≠ .dead ∧ s.worker.pc ≠ .wx := fun hd =>
    ⟨fun hs => hd (workerStep_halts (.inl hs)), fun hs => hd (workerStep_halts (.inr hs))⟩
  constructor
  · intro hd hx
    obtain ⟨hsd, hsx⟩ := hworks hd
    rcases workerStep_goes s with ⟨hret, -⟩ | ⟨st, -, hwx, -⟩
    · exact hret.trans (h.codeZero hsd hsx)
    · exact absurd hwx hx
  · intro hd hx
    obtain ⟨hsd, hsx⟩ := hworks hd
    rw [hcfg]
    rcases workerStep_goes s with ⟨-, hbudget⟩ | ⟨st, -, hwx, -⟩
    · exact hbudget (h.budget hsd hsx)
    · exact absurd hwx hx
  · intro hpc
    have hpc' : s.chRx.pc = .rv4 := (workerStep_pc s).symm.trans hpc
    have hd : s.worker.pc = .dead := ho.deadWhereNeeded (by rw [hpc']; rfl)
    rw [workerStep_dead hd]
    exact h.armed hpc'

end Worker

/-! ## Every move -/

section Moves

variable {s t : State}

theorem firstLabel_asks_nothing (i : Instr) :
    (firstLabel i).needsDeadWorker = false ∧ (firstLabel i).arming = false ∧ firstLabel i ≠ .rv4 := by
  cases i <;> exact ⟨rfl, rfl, nofun⟩

/-- What the host leaves of the consumer's label (R17, R18). -/
theorem hostStep_chRx_pc {a : HostAct} (h : hostStep a s = .next t) :
    t.chRx.pc = s.chRx.pc ∨ ∃ i, t.chRx.pc = firstLabel i := by
  rcases hostStep_eq_next h with ⟨c, args, rfl⟩ | ⟨w, rfl⟩ | hk
  · exact .inl (by cases c <;> rfl)
  · rcases s.issue_cases w with ⟨i, -, -, hi⟩ | ⟨st, hi⟩ <;> rw [hi]
    · by_cases hc : Channel.rx = i.channel
      · have hb := s.pc_begin i w
        rw [← hc] at hb
        exact .inr ⟨i, hb⟩
      · exact .inl (congrArg Chan.pc (s.chan_begin_other i w hc))
    · exact .inl rfl
  · exact .inl (congrArg Chan.pc (hk.chan .rx))

/-- Ownership and health together, as every move keeps them. -/
def KeepsWorker (s t : State) : Prop := t.WorkerOwns ∧ (s.WorkerHealthy → t.WorkerHealthy)

/-- A move that leaves the receiver, and the consumer's label or puts it at the first of a command. -/
theorem KeepsWorker.of_receiver (ho : s.WorkerOwns) (hv : t.receiver = s.receiver)
    (hpc : t.chRx.pc = s.chRx.pc ∨ ∃ i, t.chRx.pc = firstLabel i) : KeepsWorker s t := by
  have hcode := State.workerCode_of_receiver hv
  obtain ⟨hw, hopen, hrx, hcfg⟩ := State.receiver_eq hv
  have hown : t.ownership = s.ownership := by rw [State.ownership, hw, hopen, hrx, State.ownership]
  refine ⟨ho.relabel hown ?_, fun hh => hh.of_code hcfg hw (.inl hcode) fun h4 => ?_⟩
  · refine hpc.imp id fun ⟨i, hi⟩ => ?_
    obtain ⟨hneeds, harms, -⟩ := firstLabel_asks_nothing i
    rw [hi]
    exact ⟨hneeds, harms⟩
  · rcases hpc with hpc | ⟨i, hi⟩
    · obtain ⟨hret, htmo⟩ := hh.armed (hpc.symm.trans h4)
      rw [hcode, State.workerCode, hret, htmo]
    · exact absurd (hi.symm.trans h4) (firstLabel_asks_nothing i).2.2

theorem moveBody_keepsWorker {m : Move} (ho : s.WorkerOwns) (h : moveBody m s = .next t) : KeepsWorker s t := by
  have hpick : ∀ p, KeepsWorker s { s with pick := p } := fun _ => .of_receiver ho rfl (.inl rfl)
  cases m with
  | host a => exact .of_receiver ho (hostStep_receiver h) (hostStep_chRx_pc h)
  | channel c p =>
    obtain ⟨ho', hh'⟩ := hpick p
    rcases channelStep_eq_next h with ⟨-, rfl⟩ | ⟨-, i, -, -, hi⟩
    · exact ⟨ho', hh'⟩
    · exact ⟨exec_workerOwns ho' hi, fun hh => exec_workerHealthy (hh' hh) hi⟩
  | worker p =>
    cases h
    obtain ⟨ho', hh'⟩ := hpick p
    exact ⟨workerStep_workerOwns ho', fun hh => workerStep_workerHealthy ho' (hh' hh)⟩
  | dmac e =>
    cases h
    exact .of_receiver ho (dmacStep_receiver e s) (.inl (congrArg Chan.pc ((keepsChannels_dmacStep e s).chan .rx)))
  | modemRx len f =>
    cases h
    exact .of_receiver ho (modemRxStep_receiver len f s)
      (.inl (congrArg Chan.pc ((keepsChannels_modemRxStep len f s).chan .rx)))
  | modemTx =>
    cases h
    exact ⟨ho, id⟩
  | clock =>
    cases h
    exact .of_receiver ho rfl (.inl rfl)
  | reset =>
    cases h
    exact ⟨.of_dead rfl nofun, fun _ => ⟨fun hd => absurd rfl hd, fun hd => absurd rfl hd, nofun⟩⟩

end Moves

/-- Settles O54: taking the next move and the latch rule leave the receiver alone, and every move keeps both. -/
theorem workerKeepsEngine : Obligations.WorkerKeepsEngine := by
  unfold Obligations.WorkerKeepsEngine
  intro s t ho h
  obtain ⟨u, hu, rfl⟩ := act_eq_next (step_eq_next h).2
  have hnext : KeepsWorker s s.nextMove.2 := .of_receiver ho (by rw [State.nextMove_frame]; rfl)
    (.inl (by rw [State.nextMove_frame]))
  obtain ⟨hon, hhn⟩ := hnext
  obtain ⟨hou, hhu⟩ := moveBody_keepsWorker hon hu
  obtain ⟨hol, hhl⟩ : KeepsWorker u u.latch := .of_receiver hou rfl (.inl rfl)
  exact ⟨hol, fun hh => hhl (hhu (hhn hh))⟩

end Sys2Proof.Machine
end

section
/-! SUPPORT. What the CRC tells apart, and the frame of `Encode` under CODEC.DECODE (R601, R603 to R605, R607). -/

namespace Sys2Proof.Machine

/-! ## The default CRC (R601) -/

/-- The polynomial is odd, so the bit shifted out reappears as bit 0. -/
theorem getLsbD_crcShift_zero (c : U16) : (crcShift c).getLsbD 0 = c.getLsbD 15 := by
  unfold crcShift
  split
  next h => simpa using h
  next h => simpa using h

theorem crcShift_injective : Function.Injective crcShift := by
  intro c d h
  have htop : c.getLsbD 15 = d.getLsbD 15 := by rw [← getLsbD_crcShift_zero, h, getLsbD_crcShift_zero]
  have hshift : c <<< 1 = d <<< 1 := by
    unfold crcShift at h
    rw [htop] at h
    split at h
    · exact (BitVec.xor_left_inj _).1 h
    · exact h
  refine BitVec.eq_of_getLsbD_eq fun i hi => ?_
  rcases Nat.lt_or_eq_of_le (Nat.le_of_lt_succ hi) with hlt | rfl
  · have hbit := congrArg (BitVec.getLsbD · (i + 1)) hshift
    simpa [Nat.succ_lt_succ hlt, BitVec.getLsbD_eq_getElem, hi] using hbit
  · exact htop

theorem crcShifts_injective (k : Nat) : Function.Injective (crcShifts k) := by
  induction k with
  | zero => exact fun _ _ h => h
  | succ k ih => exact ih.comp crcShift_injective

/-- A byte keeps different registers different. -/
theorem crcByte_injective_left (b : Byte) : Function.Injective (crcByte · b) :=
  fun _ _ h => (BitVec.xor_left_inj _).1 (crcShifts_injective 8 h)

/-- Different bytes take one register to different ones. -/
theorem crcByte_injective_right (c : U16) : Function.Injective (crcByte c) := by
  intro b b' h
  have hword : b.setWidth 16 <<< 8 = b'.setWidth 16 <<< 8 := (BitVec.xor_right_inj _).1 (crcShifts_injective 8 h)
  refine BitVec.eq_of_getLsbD_eq fun i hi => ?_
  have hbit := congrArg (BitVec.getLsbD · (i + 8)) hword
  simpa [hi, show i + 8 < 16 by omega] using hbit

theorem foldl_crcByte_injective (ys : List Byte) : Function.Injective (ys.foldl crcByte) := by
  induction ys with
  | nil => exact fun _ _ h => h
  | cons y ys ih => exact ih.comp (crcByte_injective_left y)

/-- The changed byte leaves another register, and the bytes after it keep the registers apart. -/
theorem crcCcitt_ne_of_byte_ne (xs ys : List Byte) {b b' : Byte} (h : b ≠ b') :
    crcCcitt (xs ++ b :: ys) ≠ crcCcitt (xs ++ b' :: ys) := by
  simp only [crcCcitt, List.foldl_append, List.foldl_cons]
  exact fun heq => h (crcByte_injective_right _ (foldl_crcByte_injective ys heq))

/-- The check value, of the ASCII digits 1 to 9. -/
theorem crcCcitt_digits :
    crcCcitt [0x31#8, 0x32#8, 0x33#8, 0x34#8, 0x35#8, 0x36#8, 0x37#8, 0x38#8, 0x39#8] = 0x29B1#16 := by
  decide +kernel

/-! ## Every choice of the parameter (R8, R601) -/

theorem xor_bit_ne (b : Byte) {i : Nat} (hi : i < 8) : b ≠ b ^^^ (1#8 <<< i) := by
  intro h
  have hbit := congrArg (BitVec.getLsbD · i) h
  simp [hi] at hbit

theorem crc16_ccittFalse {c : Config} (h : c.crc16 = .ccittFalse) : crc16 c = crcCcitt := by
  funext bs
  simp only [crc16, h]

theorem crc16_other {c : Config} {k : Nat} (h : c.crc16 = .other k) : crc16 c = (Config.otherCrc k).fn.val := by
  funext bs
  simp only [crc16, h]

theorem crc16_detectsBitChange (c : Config) : DetectsBitChange (crc16 c) := by
  cases h : c.crc16 with
  | ccittFalse =>
    rw [crc16_ccittFalse h]
    exact fun xs ys b i hi => crcCcitt_ne_of_byte_ne xs ys (xor_bit_ne b hi)
  | other k =>
    rw [crc16_other h]
    exact (Config.otherCrc k).fn.property

/-- Settles O30: each step of the default CRC is injective, in the register and in the byte; of another choice the model
carries the property. -/
theorem crcDetectsOneByteChange : Obligations.CrcDetectsOneByteChange := by
  unfold Obligations.CrcDetectsOneByteChange
  exact ⟨crcCcitt_digits, rfl, fun xs ys _ _ h => crcCcitt_ne_of_byte_ne xs ys h, fun _ h => crc16_ccittFalse h,
    crc16_detectsBitChange⟩

/-! ## Decoding what `Encode` left (R603, R604, R605, R607) -/

section Encoded

variable (s : State) (e : Engine) (o : Nat) (p : List Byte) (mtu packId frameId numFrames packSz : U32)

theorem State.chan_encode (c : Channel) : (s.encode e o p mtu packId frameId numFrames packSz).chan c = s.chan c :=
  (keepsChannels_bufWrite e o _ s).chan c

theorem State.decodeHdr_encode : (s.encode e o p mtu packId frameId numFrames packSz).decodeHdr e o =
    encodeHdr s.cfg p mtu packId frameId numFrames packSz := by
  obtain ⟨hhdr, -⟩ := encodeWritesFrameLayout s e o p mtu packId frameId numFrames packSz
  exact (congrArg hdrOf hhdr).trans (hdrOf_hdrBytes _)

theorem State.readMem_encode_payload :
    (s.encode e o p mtu packId frameId numFrames packSz).readMem (.buf e) (o + hdrSize) p.length = p := by
  obtain ⟨-, hpayload, -⟩ := encodeWritesFrameLayout s e o p mtu packId frameId numFrames packSz
  exact hpayload

theorem codecGuard_encode : codecGuard e (s.encode e o p mtu packId frameId numFrames packSz) = codecGuard e s := by
  cases e <;> rfl

theorem verify_encodeHdr (c : Config) : verify c (encodeHdr c p mtu packId frameId numFrames packSz) p = .verified := by
  simp [verify, encodeHdr]

end Encoded

theorem toNat_u32 {n : Nat} (h : n < 2 ^ 32) : (u32 n).toNat = n := by
  rw [u32, BitVec.toNat_ofNat, Nat.mod_eq_of_lt h]

/-- CODEC.DECODE finds the header and the payload of the encoded frame, and the CRC copies agree with the payload. -/
theorem execTimes_codecDecode_encode {s : State} {e : Engine} {o : Nat} {p : List Byte}
    {mtu packId frameId numFrames packSz : U32} (ho : (s.chan e.channel).opd.a0.toNat = o)
    (hpc : (s.chan e.channel).pc = .dec1) (hg : codecGuard e s = .ok) (hlen : p.length < 2 ^ 32)
    (hfit : o + hdrSize + p.length ≤ s.cfg.bufSize e) :
    ∃ t : State, execTimes (.codecDecode e) 2 (s.encode e o p mtu packId frameId numFrames packSz) =
      .next (t.finish e.channel .ok (decodeResults .verified (encodeHdr s.cfg p mtu packId frameId numFrames packSz)
        ((crc16 s.cfg p).setWidth 32))) := by
  have hcfg : (s.encode e o p mtu packId frameId numFrames packSz).cfg = s.cfg := State.bufWrite_cfg ..
  have hsz : (encodeHdr s.cfg p mtu packId frameId numFrames packSz).frameSz.toNat = p.length := toNat_u32 hlen
  have hcopies : (encodeHdr s.cfg p mtu packId frameId numFrames packSz).crc =
      (encodeHdr s.cfg p mtu packId frameId numFrames packSz).crc2 := rfl
  have hrun := execTimes_codecDecode (s := s.encode e o p mtu packId frameId numFrames packSz) (o := o) (p := p)
    (by rw [State.chan_encode, ho]) (s.decodeHdr_encode ..) (by rw [hsz]; exact s.readMem_encode_payload ..)
    (by rw [State.chan_encode, hpc]) (by rw [codecGuard_encode, hg]) (by rw [hsz, hcfg]; exact hfit)
  rw [hcfg, verify_encodeHdr, if_pos hcopies] at hrun
  exact ⟨_, hrun⟩

/-- Settles O36: the run of CODEC.DECODE on the encoded frame, its result registers read off one by one. -/
theorem encodedFrameVerifies : Obligations.EncodedFrameVerifies := by
  unfold Obligations.EncodedFrameVerifies
  intro s e p mtu packId frameId numFrames packSz c o t hpc ho hw hlen hfit
  obtain ⟨u, hu⟩ := execTimes_codecDecode_encode rfl hpc (codecGuard_eq_ok hw ho) hlen hfit
  refine ⟨_, hu, ?_⟩
  rw [State.chan_finish]
  exact ⟨rfl, rfl, rfl, rfl, rfl, rfl, rfl, rfl, rfl, rfl, rfl, rfl⟩

end Sys2Proof.Machine
end

section
/-! SUPPORT. TX.INIT, TX.CLOSE, TX.SETMTU and TX.RESET: what each of their steps answers (R701 to R704, R710). -/

namespace Sys2Proof.Machine

/-! ## TX.INIT (R701) -/

section Init

variable {s t : State} {st : Status} (hpc : s.chTx.pc = .txInit)
include hpc

theorem exec_txInit_ok (h : s.openEngine .tx = (.ok, t)) : exec .txInit s =
    .next ({ t with cfgMtu := 0#32, packId := 0#32, txInited := true }.finish .tx .ok (bufResults s.cfg .tx)) := by
  simp only [exec, execTxInit, hpc, h]

theorem exec_txInit_raise (h : s.openEngine .tx = (st, t)) (hst : st ≠ .ok) :
    exec .txInit s = .next (t.raise .tx st) := by
  cases st
  case ok => exact absurd rfl hst
  all_goals simp only [exec, execTxInit, hpc, h]

end Init

/-- An engine that is open, or that opens, is open afterwards, and nothing else has changed. -/
theorem openEngine_tx_ok {s : State} (h : s.openTx = true ∨ s.cfg.platformOkTx = true ∧ s.cfg.mapOkTx = true) :
    s.openEngine .tx = (.ok, { s with openTx := true }) := by
  cases ho : s.openTx with
  | true =>
    rw [openEngine_opened (e := .tx) ho, ← ho]
  | false =>
    obtain ⟨hp, hm⟩ := h.resolve_left (by simp [ho])
    exact openEngine_opens (e := .tx) ho hp hm

/-- Settles O37, by the answers of `State.openEngine` for engine TX. -/
theorem txInitCompletes : Obligations.TxInitCompletes := by
  unfold Obligations.TxInitCompletes
  refine fun s hpc => ⟨fun ho hp => ?_, fun ho hp hm => ?_, fun h => ?_⟩
  · exact exec_txInit_raise hpc (openEngine_eResource (e := .tx) ho hp) nofun
  · exact exec_txInit_raise hpc (openEngine_eMap (e := .tx) ho hp hm) nofun
  · exact exec_txInit_ok hpc (openEngine_tx_ok h)

/-! ## TX.CLOSE (R545, R702) -/

section TxClose

variable {s : State}

theorem exec_txClose_closed (hpc : s.chTx.pc = .tcl1) (ho : s.openTx = false) :
    exec .txClose s = .next ({ s with txInited := false }.finish .tx .ok [0#32]) := by
  simp only [exec, execTxClose, hpc, ho, Bool.false_eq_true, if_false]

theorem exec_txClose_abort (hpc : s.chTx.pc = .tcl1) (ho : s.openTx = true) :
    exec .txClose s = .next ((s.regWrite (.dmac .tx .control) 0#32).goto .tx .tcl2) := by
  simp only [exec, execTxClose, hpc, ho, if_true, dReg]

theorem exec_txClose_close (hpc : s.chTx.pc = .tcl2) : exec .txClose s =
    .next ({ s.irqMask .dtx with openTx := false, txInited := false }.finish .tx .ok [0#32]) := by
  simp only [exec, execTxClose, hpc]

end TxClose

/-- Settles O38: the closed engine at once; the open one by the abort and the step that masks and closes. -/
theorem txCloseCompletes : Obligations.TxCloseCompletes := by
  unfold Obligations.TxCloseCompletes
  refine fun s hpc => ⟨exec_txClose_closed hpc, fun ho => ?_⟩
  rw [execTimes_succ (exec_txClose_abort hpc ho), execTimes_succ (exec_txClose_close rfl), execTimes]
  rfl

/-! ## TX.SETMTU (R703, R710) -/

section SetMtu

variable {s : State} (hpc : s.chTx.pc = .txSetMtu)
include hpc

theorem exec_txSetMtu_notOpen (hi : s.txInited = false) : exec .txSetMtu s = .next (s.raise .tx .eNotOpen) := by
  simp only [exec, execTxSetMtu, hpc, hi, if_true]

theorem exec_txSetMtu_stores (hi : s.txInited = true) : exec .txSetMtu s =
    .next ({ s with cfgMtu := s.chTx.opd.a0 }.finish .tx .ok [u32 (normMtu s.cfg s.chTx.opd.a0)]) := by
  simp only [exec, execTxSetMtu, hpc, hi, Bool.true_eq_false, if_false]

end SetMtu

theorem rd8_mod (n : Nat) : rd8 n % 8 = 0 := by
  unfold rd8
  omega

theorem rd8_le (n : Nat) : rd8 n ≤ n := Nat.sub_le ..

/-- Rounding down does not cross a multiple of 8. -/
theorem le_rd8 {k n : Nat} (hk : k % 8 = 0) (h : k ≤ n) : k ≤ rd8 n := by
  unfold rd8
  omega

theorem Config.wf_minMtu_mod {c : Config} (h : c.wf = true) : c.minMtu % 8 = 0 := by
  have h' := h
  simp only [Config.wf] at h'
  simp_all [Config.mtuOk]

theorem Config.wf_defaultMtu_le {c : Config} (h : c.wf = true) : c.defaultMtu ≤ c.maxMtu := by
  have h' := h
  simp only [Config.wf] at h'
  simp_all [Config.defaultMtuOk]

/-- The MTU in force is a multiple of 8 between the bounds: a requested one is rounded down to no less than the lower bound,
and the default lies between them (R8, R710). -/
theorem normMtu_legal {c : Config} (h : c.wf = true) (mtu : U32) :
    normMtu c mtu % 8 = 0 ∧ c.minMtu ≤ normMtu c mtu ∧ normMtu c mtu ≤ c.maxMtu := by
  unfold normMtu
  split
  next hc =>
    obtain ⟨-, hmin, hmax⟩ := hc
    exact ⟨rd8_mod _, le_rd8 (Config.wf_minMtu_mod h) hmin, (rd8_le _).trans hmax⟩
  · exact ⟨rd8_mod _, Config.wf_defaultMtu h, Config.wf_defaultMtu_le h⟩

/-- Settles O39: the two branches of the command, and `normMtu_legal`. -/
theorem txSetMtuCompletes : Obligations.TxSetMtuCompletes := by
  unfold Obligations.TxSetMtuCompletes
  exact fun s hpc => ⟨exec_txSetMtu_notOpen hpc, exec_txSetMtu_stores hpc, normMtu_legal⟩

/-! ## TX.RESET (R704) -/

section Reset

variable {s : State}

theorem exec_txReset_notOpen (hpc : s.chTx.pc = .tr1) (hi : s.txInited = false) :
    exec .txReset s = .next (s.raise .tx .eNotOpen) := by
  simp only [exec, execTxReset, hpc, hi, if_true]

theorem exec_txReset_begins (hpc : s.chTx.pc = .tr1) (hi : s.txInited = true) :
    exec .txReset s = .next (s.goto .tx .tr2) := by
  simp only [exec, execTxReset, hpc, hi, Bool.true_eq_false, if_false]

theorem exec_txReset_asserts (hpc : s.chTx.pc = .tr2) :
    exec .txReset s = .next ((s.regWrite (.mtx .reset) 1#32).goto .tx .tr3) := by
  simp only [exec, execTxReset, hpc]

theorem exec_txReset_selects (hpc : s.chTx.pc = .tr3) :
    exec .txReset s = .next ((s.regWrite (.mtx .txSrcSel) s.chTx.opd.a0).goto .tx .tr4) := by
  simp only [exec, execTxReset, hpc]

theorem exec_txReset_releases (hpc : s.chTx.pc = .tr4) :
    exec .txReset s = .next ((s.regWrite (.mtx .reset) 0#32).finish .tx .ok [0#32]) := by
  simp only [exec, execTxReset, hpc]

variable (hpc : s.chTx.pc = .tr1) (hi : s.txInited = true)
include hpc hi

/-- The check, then the assertion of the core's reset. -/
theorem execTimes_txReset_asserted :
    execTimes .txReset 2 s = .next (((s.goto .tx .tr2).regWrite (.mtx .reset) 1#32).goto .tx .tr3) := by
  rw [execTimes_succ (exec_txReset_begins hpc hi), execTimes_succ (exec_txReset_asserts rfl), execTimes]

/-- The source is selected and the reset released; each of the three register writes may settle the lines. -/
theorem execTimes_txReset_completed : ∃ ls : Lines, execTimes .txReset 4 s =
    .next ({ s with mtx := { reset := 0#32, txSrcSel := s.chTx.opd.a0 }, lines := ls }.finish .tx .ok [0#32]) := by
  rw [execTimes_add (j := 2) (k := 2) (execTimes_txReset_asserted hpc hi), execTimes_succ (exec_txReset_selects rfl),
    execTimes_succ (exec_txReset_releases rfl), execTimes]
  exact ⟨_, rfl⟩

end Reset

/-- Settles O40: the check, and the run of the four steps with the reset asserted after the second. -/
theorem txResetCompletes : Obligations.TxResetCompletes := by
  unfold Obligations.TxResetCompletes
  refine fun s hpc => ⟨exec_txReset_notOpen hpc, fun hi => ?_⟩
  obtain ⟨ls, hcompleted⟩ := execTimes_txReset_completed hpc hi
  exact ⟨ls, hcompleted, _, execTimes_txReset_asserted hpc hi, rfl⟩

end Sys2Proof.Machine
end

section
/-! SUPPORT. TX.WRITE step by step: its checks and the plan of a packet (R705, R710 to R713), and the backpressure machine with
its flushes and the results (R715 to R718, R720). -/

namespace Sys2Proof.Machine

/-! ## The checks (R705) -/

theorem exec_tw1 {s : State} (hpc : s.chTx.pc = .tw1) : exec .txWrite s = .next (txCheck s) := by
  simp only [exec, execTxWrite, hpc]

section Check

variable {s : State}

theorem txCheck_notOpen (h : s.txInited = false ∨ s.openTx = false) : txCheck s = s.raise .tx .eNotOpen := if_pos h

variable (hi : s.txInited = true) (ho : s.openTx = true)
include hi ho

theorem txCheck_noBytes (hsize : s32 s.chTx.opd.a1 ≤ 0) : txCheck s = s.raise .tx .eSize := by
  simp [txCheck, hi, ho, hsize]

theorem txCheck_source (hlong : s.cfg.hostMemSize < s.chTx.opd.a0.toNat + s.chTx.opd.a1.toNat) :
    txCheck s = s.raise .tx .eSize := by
  simp [txCheck, hi, ho, hlong]

theorem txCheck_passes (hsize : 0 < s32 s.chTx.opd.a1)
    (hsrc : s.chTx.opd.a0.toNat + s.chTx.opd.a1.toNat ≤ s.cfg.hostMemSize) :
    txCheck s = s.gotoWith .tx .tw2 { s.chTx.loc with n := s.chTx.opd.a1.toNat } := by
  simp [txCheck, hi, ho, Int.not_le.2 hsize, Nat.not_lt.2 hsrc]

end Check

/-! ## The plan (R710 to R715) -/

theorem exec_tw2 {s : State} (hpc : s.chTx.pc = .tw2) : exec .txWrite s = .next (txPlan s) := by
  simp only [exec, execTxWrite, hpc]

section Plan

variable {s : State} {m nf : Nat} (hm : normMtu s.cfg s.cfgMtu = m) (hnf : ceilDiv s.chTx.loc.n m = nf)
include hm hnf

/-- The refusal leaves `pack_id` as it is. -/
theorem txPlan_refuses (h : s.cfg.bufSizeTx ≤ nf * footprint s.cfg m) :
    txPlan s = { s with cfgMtu := u32 m }.raise .tx .ePacketTooLarge := by
  subst hm hnf
  exact if_pos (decide_eq_true h)

theorem txPlan_numbers (h : nf * footprint s.cfg m < s.cfg.bufSizeTx) :
    txPlan s = { s with cfgMtu := u32 m, packId := s.packId + 1#32 }.gotoWith .tx
      (if nf ≤ s.cfg.bpThreshold then .tsEnc else .tbEnc)
      { s.chTx.loc with m := m, nf := nf, pid := s.packId + 1#32, i := 0, off := 0 } := by
  subst hm hnf
  have hfits : ¬ packetTooLarge s.cfg s.chTx.loc.n (normMtu s.cfg s.cfgMtu) = true := fun hlarge =>
    Nat.not_le_of_lt h (of_decide_eq_true hlarge)
  exact if_neg hfits

end Plan

/-! ### The frames of a planned packet (R713) -/

/-- All frames but the last leave bytes for the last. -/
theorem mul_pred_ceilDiv_lt {n m : Nat} (hn : 0 < n) (hm : 0 < m) : m * (ceilDiv n m - 1) < n := by
  have hle : m * ceilDiv n m ≤ n + m - 1 := Nat.mul_div_le ..
  rw [Nat.mul_sub_one]
  omega

/-- No frame of a packet with bytes is empty. -/
theorem frameSize_pos {n m : Nat} (hn : 0 < n) (hm : 0 < m) (i : Nat) : 0 < frameSize n m (ceilDiv n m) i := by
  unfold frameSize
  split
  · exact hm
  · exact Nat.sub_pos_of_lt (mul_pred_ceilDiv_lt hn hm)

/-- Where the frames of the packet fit, each ends inside the buffer. -/
theorem frame_ends_inside {c : Config} {n m size i : Nat} (hm : 0 < m) (hi : i < ceilDiv n m)
    (hfit : ceilDiv n m * footprint c m < size) :
    i * footprint c m + footprint c (frameSize n m (ceilDiv n m) i) < size :=
  calc i * footprint c m + footprint c (frameSize n m (ceilDiv n m) i)
      ≤ i * footprint c m + footprint c m := Nat.add_le_add_left (footprint_frameSize_le c hm rfl i) _
    _ = (i + 1) * footprint c m := (Nat.succ_mul ..).symm
    _ ≤ ceilDiv n m * footprint c m := Nat.mul_le_mul_right _ hi
    _ < size := hfit

/-- Settles O41: the checks and the plan branch by branch, and the frames by the bounds of `frameSize`. -/
theorem txWriteChecksAndPlans : Obligations.TxWriteChecksAndPlans := by
  unfold Obligations.TxWriteChecksAndPlans
  refine fun s => ⟨fun hpc => ?checks, fun hpc => ?plan⟩
  case checks =>
    rw [exec_tw1 hpc]
    exact ⟨fun h => congrArg _ (txCheck_notOpen h), fun hi ho hsize => congrArg _ (txCheck_noBytes hi ho hsize),
      fun hi ho _ hlong => congrArg _ (txCheck_source hi ho hlong),
      fun hi ho hsize hsrc => congrArg _ (txCheck_passes hi ho hsize hsrc)⟩
  case plan =>
    rw [exec_tw2 hpc]
    refine ⟨fun hlarge => congrArg _ (txPlan_refuses rfl rfl hlarge), fun hfit =>
      ⟨congrArg _ (txPlan_numbers rfl rfl hfit), fun hw hn i hi => ?_⟩⟩
    have hm := normMtu_pos hw s.cfgMtu
    exact ⟨frameSize_pos hn hm i, frameSize_le hm i, frame_ends_inside hm hi hfit⟩

/-! ## The backpressure machine (R715 to R717, R720) -/

section Backpressure

variable {s : State}

theorem exec_tbEnc (hpc : s.chTx.pc = .tbEnc) : exec .txWrite s = .next (txBuildOne s) := by
  simp only [exec, execTxWrite, hpc]

theorem exec_tbFlush {l : DmaLabel} (hpc : s.chTx.pc = .tbFlush l) :
    exec .txWrite s = .next (txFlush .tbFlush txFlushed l s) := by
  simp only [exec, execTxWrite, hpc]

theorem exec_tbEobf {l : DmaLabel} (hpc : s.chTx.pc = .tbEobf l) :
    exec .txWrite s = .next (txFlush .tbEobf (fun t => t.goto .tx .twDone) l s) := by
  simp only [exec, execTxWrite, hpc]

theorem exec_tbThr (hpc : s.chTx.pc = .tbThr) : exec .txWrite s = .next (txThrottle s) := by
  simp only [exec, execTxWrite, hpc]

theorem exec_tbPause (hpc : s.chTx.pc = .tbPause) : exec .txWrite s = .next (txPause s) := by
  simp only [exec, execTxWrite, hpc]

theorem exec_tbEob (hpc : s.chTx.pc = .tbEob) : exec .txWrite s = .next (txEndOfBurst s) := by
  simp only [exec, execTxWrite, hpc]

theorem exec_twDone (hpc : s.chTx.pc = .twDone) : exec .txWrite s = .next (txDone s) := by
  simp only [exec, execTxWrite, hpc]

/-- Where the machine goes after the flush of a frame with locals `x`: a pause is due every `BP_THROTTLE_EVERY` frames, but
not after the last (R716). -/
def afterFrame (c : Config) (x : Locals) : Label :=
  if (x.i + 1) % c.bpThrottleEvery = 0 ∧ x.i + 1 < x.nf then .tbThr else if x.i + 1 < x.nf then .tbEnc else .tbEob

/-- The frame after the one with locals `x` begins where that one ends. -/
def nextFrame (c : Config) (x : Locals) : Locals := { x with i := x.i + 1, off := x.off + footprint c (txFrameSize x) }

theorem txFlushed_eq (s : State) :
    txFlushed s = s.gotoWith .tx (afterFrame s.cfg s.chTx.loc) (nextFrame s.cfg s.chTx.loc) := by
  unfold txFlushed afterFrame
  dsimp only
  split
  · rfl
  · split <;> rfl

/-- The pause ends at its deadline, or at any time under abstract time. -/
theorem txPause_ends (hp : s.pick = .expire)
    (ht : s.chTx.loc.t0 + s.cfg.bpPauseMs ≤ s.timeMs ∨ s.cfg.timeAbstract = true) : txPause s = s.goto .tx .tbEnc :=
  if_pos ⟨hp, State.expired_unlatched.2 ht⟩

theorem txPause_holds (ht : s.timeMs < s.chTx.loc.t0 + s.cfg.bpPauseMs) (ha : s.cfg.timeAbstract = false) :
    txPause s = s := by
  refine if_neg fun ⟨_, hexp⟩ => ?_
  rcases State.expired_unlatched.1 hexp with hle | habs
  · exact Nat.not_le_of_lt ht hle
  · exact Bool.false_ne_true (ha.symm.trans habs)

end Backpressure

/-! ## The flushes (R718) -/

section Flush

variable {s : State} {mk : DmaLabel → Label} {k : State → State} {l : DmaLabel}

/-- A DMA procedure returns in the state it was called in, so only there does what follows a flush matter. -/
theorem txFlush_congr {k' : State → State} (h : k s = k' s) : txFlush mk k l s = txFlush mk k' l s := by
  unfold txFlush
  split
  · rfl
  next hret => rwa [eq_of_dmaStep_ret hret]
  · rfl
  · rfl

theorem txFlush_back : txFlush mk k .back s = k s := rfl

/-- A bus error in the wait of a flush ends the command (R407, R509, R718). -/
theorem txFlush_busError (hp : s.pick = .fail) (hb : s.cfg.busMayFail = true) :
    txFlush mk k .wp3 s = s.raise .tx .eBus := by
  simp only [txFlush, dmaStep_busError (e := .tx) (State.irqWait_fail hp hb)]

end Flush

/-- A bus error ends TX.WRITE in each of its three flushes: of a staged packet, of one frame, of the end of the burst. -/
theorem exec_flush_busError {s : State} {mk : DmaLabel → Label} (hmk : mk = .tsFlush ∨ mk = .tbFlush ∨ mk = .tbEobf)
    (hpc : s.chTx.pc = mk .wp3) (hp : s.pick = .fail) (hb : s.cfg.busMayFail = true) :
    exec .txWrite s = .next (s.raise .tx .eBus) := by
  rcases hmk with rfl | rfl | rfl
  · rw [exec_tsFlush hpc, txFlush_busError hp hb]
  · rw [exec_tbFlush hpc, txFlush_busError hp hb]
  · rw [exec_tbEobf hpc, txFlush_busError hp hb]

/-- Settles O43: every label of the machine by its own equation, the flushes as the runs of `dmaStep` that they are. -/
theorem txBackpressureSteps : Obligations.TxBackpressureSteps := by
  unfold Obligations.TxBackpressureSteps
  intro s x fs
  refine ⟨fun hpc => ⟨_, exec_tbEnc hpc, rfl, rfl, rfl, rfl⟩, ?frameFlush, fun l hpc => ?_,
    fun hpc => ⟨_, rfl, exec_tbThr hpc⟩, fun hpc => ⟨fun hp ht => ?_, fun ht ha => ?_⟩,
    fun hpc => ⟨_, exec_tbEob hpc, rfl, rfl, rfl, rfl⟩, fun hpc => ?_,
    fun mk hmk hpc hp hb => exec_flush_busError hmk hpc hp hb, exec_twDone⟩
  case frameFlush =>
    intro flushed
    have hflushed : txFlushed s = flushed s := txFlushed_eq s
    refine ⟨fun hpc => ?_, fun l hpc => ?_⟩
    · rw [exec_tbFlush hpc, txFlush_back, hflushed]
    · rw [exec_tbFlush hpc, txFlush_congr hflushed, txFlush_eq_runAs]
  · rw [exec_tbEobf hpc, txFlush_eq_runAs]
  · rw [exec_tbPause hpc, txPause_ends hp ht]
  · rw [exec_tbPause hpc, txPause_holds ht ha]
  · rcases hpc with hpc | hpc
    · rw [exec_tsFlush hpc, txFlush_back]
    · rw [exec_tbEobf hpc, txFlush_back]

end Sys2Proof.Machine
end

section
/-! SUPPORT. RX.INIT and RX.CLOSE: what each of their steps answers (R801, R802). -/

namespace Sys2Proof.Machine

/-! ## RX.INIT (R801) -/

section RxInit

variable {s t : State} {st : Status} (hpc : s.chRx.pc = .rxInit)
include hpc

theorem exec_rxInit_busy (hw : s.worker.pc ≠ .dead) : exec .rxInit s = .next (s.raise .rx .eBusy) := by
  simp only [exec, execRxInit, hpc, workerAlive_eq_true hw, if_true]

variable (hw : s.worker.pc = .dead)
include hw

theorem exec_rxInit_raise (h : s.openEngine .rx = (st, t)) (hst : st ≠ .ok) :
    exec .rxInit s = .next (t.raise .rx st) := by
  cases st
  case ok => exact absurd rfl hst
  all_goals simp only [exec, execRxInit, hpc, workerAlive_eq_false hw, h, Bool.false_eq_true, if_false]

theorem exec_rxInit_ok (h : s.openEngine .rx = (.ok, t)) : exec .rxInit s =
    .next ({ t with rx := { t.rx with
      inited := true, state := .idle, configured := false, count := 0#32, nextOff := 0, workerRet := 0#32
      tmoCount := 0, done := true } }.finish .rx .ok (bufResults s.cfg .rx)) := by
  simp only [exec, execRxInit, hpc, workerAlive_eq_false hw, h, Bool.false_eq_true, if_false]

end RxInit

/-- Engine RX is open afterwards if it is open or opens, and nothing else has changed. -/
theorem openEngine_rx_ok {s : State} (h : s.openRx = true ∨ s.cfg.platformOkRx = true ∧ s.cfg.mapOkRx = true) :
    s.openEngine .rx = (.ok, { s with openRx := true }) := by
  cases ho : s.openRx with
  | true => rw [openEngine_opened (e := .rx) ho, ← ho]
  | false =>
    obtain ⟨hp, hm⟩ := h.resolve_left (by simp [ho])
    exact openEngine_opens (e := .rx) ho hp hm

/-- Settles O44, by the answers of `State.openEngine` for engine RX. -/
theorem rxInitCompletes : Obligations.RxInitCompletes := by
  unfold Obligations.RxInitCompletes
  refine fun s hpc => ⟨exec_rxInit_busy hpc, fun hw ho hp => ?_, fun hw ho hp hm => ?_, fun hw h => ?_⟩
  · exact exec_rxInit_raise hpc hw (openEngine_eResource (e := .rx) ho hp) nofun
  · exact exec_rxInit_raise hpc hw (openEngine_eMap (e := .rx) ho hp hm) nofun
  · exact exec_rxInit_ok hpc hw (openEngine_rx_ok h)

/-! ## RX.CLOSE (R545, R802) -/

section RxClose

variable {s : State}

theorem exec_rc1_closed (hpc : s.chRx.pc = .rc1) (hi : s.rx.inited = false) (ho : s.openRx = false) :
    exec .rxClose s = .next (s.finish .rx .ok [0#32]) := by
  simp only [exec, execRxClose, hpc, hi, ho, and_self, if_true]

theorem exec_rc1_goes (hpc : s.chRx.pc = .rc1) (h : s.rx.inited = true ∨ s.openRx = true) :
    exec .rxClose s = .next (s.goto .rx .rc2) := by
  have hopen : ¬ (s.rx.inited = false ∧ s.openRx = false) := fun ⟨hi, ho⟩ => by simp [hi, ho] at h
  simp only [exec, execRxClose, hpc, if_neg hopen]

theorem exec_rc2 (hpc : s.chRx.pc = .rc2) :
    exec .rxClose s = .next ({ s with rx := { s.rx with done := true } }.goto .rx .rc3) := by
  simp only [exec, execRxClose, hpc]

theorem exec_rc3_holds (hpc : s.chRx.pc = .rc3) (hw : s.worker.pc ≠ .dead) : exec .rxClose s = .next s := by
  simp only [exec, execRxClose, hpc, workerAlive_eq_true hw, if_true]

theorem exec_rc3_goes (hpc : s.chRx.pc = .rc3) (hw : s.worker.pc = .dead) :
    exec .rxClose s = .next (s.goto .rx .rc4) := by
  simp only [exec, execRxClose, hpc, workerAlive_eq_false hw, Bool.false_eq_true, if_false]

theorem exec_rc4 (hpc : s.chRx.pc = .rc4) : exec .rxClose s =
    .next ((s.setLine .mrx { masked := true, latched := false }).goto .rx .rc5) := by
  simp only [exec, execRxClose, hpc, State.irqMask]

theorem exec_rc5 (hpc : s.chRx.pc = .rc5) : exec .rxClose s =
    .next ((if s.openRx = true then s.regWrite (.dmac .rx .control) 0#32 else s).goto .rx .rc6) := by
  simp only [exec, execRxClose, hpc, dReg]

theorem exec_rc6 (hpc : s.chRx.pc = .rc6) : exec .rxClose s = .next (State.goto
    (if s.openRx = true then { s.setLine .drx { masked := true, latched := false } with openRx := false } else s)
    .rx .rc7) := by
  simp only [exec, execRxClose, hpc, State.irqMask, State.setOpen_eq_rx]

theorem exec_rc7 (hpc : s.chRx.pc = .rc7) : exec .rxClose s =
    .next ({ s with rx := { s.rx with inited := false, state := .idle } }.finish .rx .ok [0#32]) := by
  simp only [exec, execRxClose, hpc]

/-- Up to the end of the wait for the worker, which is dead: `done` is set. -/
theorem execTimes_rxClose_waits (hpc : s.chRx.pc = .rc1) (hw : s.worker.pc = .dead)
    (h : s.rx.inited = true ∨ s.openRx = true) :
    execTimes .rxClose 3 s = .next ({ s with rx := { s.rx with done := true } }.goto .rx .rc4) := by
  rw [execTimes_succ (exec_rc1_goes hpc h), execTimes_succ (exec_rc2 rfl), execTimes_succ (exec_rc3_goes rfl ?dead),
    execTimes]
  case dead => exact hw
  rfl

/-- With the engine closed the rest masks the core's line and leaves the reassembler uninitialised. -/
theorem execTimes_rxClose_closed (hpc : s.chRx.pc = .rc4) (ho : s.openRx = false) : execTimes .rxClose 4 s =
    .next ({ s.setLine .mrx { masked := true, latched := false } with
      rx := { s.rx with inited := false, state := .idle } }.finish .rx .ok [0#32]) := by
  have hne : ¬ s.openRx = true := by simp [ho]
  rw [execTimes_succ (exec_rc4 hpc), execTimes_succ (exec_rc5 rfl), execTimes_succ (exec_rc6 rfl),
    execTimes_succ (exec_rc7 rfl), execTimes]
  simp only [State.goto_openRx, State.setLine_openRx, if_neg hne]
  rfl

/-- With the engine open it also aborts the controller, masks its line and closes the engine. -/
theorem execTimes_rxClose_open (hpc : s.chRx.pc = .rc4) (ho : s.openRx = true) : execTimes .rxClose 4 s =
    .next ({ ((s.setLine .mrx { masked := true, latched := false }).regWrite (.dmac .rx .control) 0#32).setLine .drx
        { masked := true, latched := false } with
      openRx := false
      rx := { s.rx with inited := false, state := .idle } }.finish .rx .ok [0#32]) := by
  rw [execTimes_succ (exec_rc4 hpc), execTimes_succ (exec_rc5 rfl), execTimes_succ (exec_rc6 rfl),
    execTimes_succ (exec_rc7 rfl), execTimes]
  simp only [State.goto_openRx, State.regWrite_openRx, State.setLine_openRx, if_pos ho]
  rfl

end RxClose

/-- Settles O45: each label by its equation; the run as the wait for the worker and the two ways of closing. -/
theorem rxCloseCompletes : Obligations.RxCloseCompletes := by
  unfold Obligations.RxCloseCompletes
  refine fun s => ⟨exec_rc1_closed, exec_rc1_goes, exec_rc2, exec_rc3_holds, exec_rc3_goes, exec_rc4, exec_rc5, exec_rc6,
    exec_rc7, fun hpc hw h => ?_⟩
  rw [execTimes_add (j := 3) (k := 4) (execTimes_rxClose_waits hpc hw h)]
  by_cases ho : s.openRx = true
  · refine ⟨_, execTimes_rxClose_open rfl ho, rfl, rfl, rfl, rfl, rfl, ?_, fun _ => ⟨rfl, rfl⟩, fun hc => ?_⟩
    · exact (State.line_regWrite _ _ _ .mrx).trans (Line.latch_masked _ _ rfl)
    · exact absurd (ho.symm.trans hc) nofun
  · have hc : s.openRx = false := Bool.eq_false_iff.2 ho
    refine ⟨_, execTimes_rxClose_closed rfl hc, ?_, rfl, rfl, rfl, rfl, rfl, fun h => absurd h ho, fun _ => rfl⟩
    rw [← hc]
    rfl

end Sys2Proof.Machine
end

section
/-! SUPPORT. RX.RESET, RX.START and RX.STOP: what each of their steps answers, and the register writes of RX.RESET together
(R803 to R805). -/

namespace Sys2Proof.Machine

/-! ## RX.RESET (R803) -/

section RxReset

variable {s : State}

theorem exec_rr1_notOpen (hpc : s.chRx.pc = .rr1) (hi : s.rx.inited = false) :
    exec .rxReset s = .next (s.raise .rx .eNotOpen) := by
  simp only [exec, execRxReset, hpc, hi, if_true]

theorem exec_rr1_busy (hpc : s.chRx.pc = .rr1) (hi : s.rx.inited = true) (hw : s.worker.pc ≠ .dead) :
    exec .rxReset s = .next (s.raise .rx .eBusy) := by
  simp only [exec, execRxReset, hpc, hi, workerAlive_eq_true hw, Bool.true_eq_false, if_false, if_true]

theorem exec_rr1_goes (hpc : s.chRx.pc = .rr1) (hi : s.rx.inited = true) (hw : s.worker.pc = .dead) :
    exec .rxReset s = .next (s.goto .rx .rr2) := by
  simp only [exec, execRxReset, hpc, hi, workerAlive_eq_false hw, Bool.true_eq_false, Bool.false_eq_true, if_false]

theorem exec_rr2 (hpc : s.chRx.pc = .rr2) :
    exec .rxReset s = .next ((s.regWrite (.mrx .rxEnable) 0#32).goto .rx .rr3) := by
  simp only [exec, execRxReset, hpc]

theorem exec_rr3 (hpc : s.chRx.pc = .rr3) :
    exec .rxReset s = .next ((s.regWrite (.mrx .reset) 1#32).goto .rx .rr4) := by
  simp only [exec, execRxReset, hpc]

theorem exec_rr4 (hpc : s.chRx.pc = .rr4) :
    exec .rxReset s = .next ((s.regWrite (.mrx .loopBw) s.chRx.opd.a0).goto .rx .rr5) := by
  simp only [exec, execRxReset, hpc]

theorem exec_rr5 (hpc : s.chRx.pc = .rr5) :
    exec .rxReset s = .next ((s.regWrite (.mrx .eqGain) s.chRx.opd.a1).goto .rx .rr6) := by
  simp only [exec, execRxReset, hpc]

theorem exec_rr6 (hpc : s.chRx.pc = .rr6) : exec .rxReset s =
    .next ((s.regWrite (.mrx .bypassCoding) (bitWord (s.chRx.opd.a2.getLsbD 0))).goto .rx .rr7) := by
  simp only [exec, execRxReset, hpc]

theorem exec_rr7 (hpc : s.chRx.pc = .rr7) : exec .rxReset s =
    .next ((s.regWrite (.mrx .bypassEq) (bitWord (s.chRx.opd.a2.getLsbD 1))).goto .rx .rr8) := by
  simp only [exec, execRxReset, hpc]

theorem exec_rr8 (hpc : s.chRx.pc = .rr8) : exec .rxReset s =
    .next ((s.regWrite (.mrx .detThresh) s.chRx.opd.a3).gotoWith .rx (rxCoefLabel s) { s.chRx.loc with k := 0 }) := by
  simp only [exec, execRxReset, hpc]

/-- The operand that holds coefficient `k` (R803). -/
def Operands.coef (a : Operands) (k : Fin 4) : U32 :=
  match k with
  | 0 => a.a4
  | 1 => a.a5
  | 2 => a.a6
  | 3 => a.a7

theorem exec_rr9 (hpc : s.chRx.pc = .rr9) {k : Fin 4} (hk : s.chRx.loc.k = k.val) : exec .rxReset s =
    if k.val + 1 < s.cfg.frCoefCount then
      .next ((s.regWrite (.mrx (.frCoef k)) (s.chRx.opd.coef k)).gotoWith .rx .rr9 { s.chRx.loc with k := k.val + 1 })
    else .next ((s.regWrite (.mrx (.frCoef k)) (s.chRx.opd.coef k)).goto .rx .rr10) := by
  have hreg : Fin.ofNat 4 k.val = k := Fin.ext (Nat.mod_eq_of_lt k.isLt)
  have hopd : s.chRx.opd.get (Fin.ofNat 8 (4 + k.val)) = s.chRx.opd.coef k := by fin_cases k <;> rfl
  simp only [exec, execRxReset, hpc, rxWriteCoef, hk, hreg, hopd]
  split <;> rfl

theorem exec_rr10 (hpc : s.chRx.pc = .rr10) :
    exec .rxReset s = .next ((s.regWrite (.mrx .reset) 0#32).goto .rx .rr11) := by
  simp only [exec, execRxReset, hpc]

theorem exec_rr11 (hpc : s.chRx.pc = .rr11) :
    exec .rxReset s = .next ((s.regWrite (.mrx .rxEnable) 1#32).goto .rx .rr12) := by
  simp only [exec, execRxReset, hpc]

theorem exec_rr12 (hpc : s.chRx.pc = .rr12) : exec .rxReset s =
    .next ({ s with rx := { s.rx with configured := true } }.finish .rx .ok [0#32]) := by
  simp only [exec, execRxReset, hpc]

end RxReset

/-! ### The writes together -/

/-- The operands in the core's registers, the coefficients apart, and the core held in reset (RR2 to RR8). -/
def ModemRx.held (m : ModemRx) (a : Operands) : ModemRx :=
  { m with
    reset := 1#32, rxEnable := 0#32, loopBw := a.a0, eqGain := a.a1, bypassCoding := bitWord (a.a2.getLsbD 0)
    bypassEq := bitWord (a.a2.getLsbD 1), detThresh := a.a3, rxq := [] }

/-- The first `n` coefficients written (RR9). -/
def ModemRx.withCoefs (m : ModemRx) (a : Operands) (n : Nat) : ModemRx :=
  { m with
    frCoef0 := if 0 < n then a.a4 else m.frCoef0, frCoef1 := if 1 < n then a.a5 else m.frCoef1
    frCoef2 := if 2 < n then a.a6 else m.frCoef2, frCoef3 := if 3 < n then a.a7 else m.frCoef3 }

theorem ModemRx.withCoefs_write (m : ModemRx) (a : Operands) (k : Fin 4) :
    (m.withCoefs a k.val).write (.frCoef k) (a.coef k) = m.withCoefs a (k.val + 1) := by
  fin_cases k <;> rfl

theorem bitWord_and_one (b : Bool) : bitWord b &&& 0x1#32 = bitWord b := by cases b <;> rfl

/-- One more step at the end of a run. -/
theorem execTimes_snoc {i : Instr} {n : Nat} {s t u : State} (hrun : execTimes i n s = .next t)
    (hstep : exec i t = .next u) : execTimes i (n + 1) s = .next u := by
  rw [execTimes_add hrun, execTimes_succ hstep, execTimes]

/-- RX.RESET begun in `s` stands at label `l` with the core at `m` and the loop's index at `k`: the lines may have settled,
and nothing else has changed beside the channel. -/
structure RxResetAt (s : State) (m : ModemRx) (l : Label) (k : Nat) (t : State) : Prop where
  frame : t = { s with chRx := t.chRx, mrx := m, lines := t.lines }
  operands : t.chRx.opd = s.chRx.opd
  pc : t.chRx.pc = l
  index : t.chRx.loc.k = k

/-- `n` steps of RX.RESET lead there. -/
def RxResetReaches (s : State) (n : Nat) (m : ModemRx) (l : Label) (k : Nat) : Prop :=
  ∃ t, execTimes .rxReset n s = .next t ∧ RxResetAt s m l k t

section RxResetRun

variable {s : State} {n k k' : Nat} {m : ModemRx} {l l' : Label} {r : RReg} {v : U32}

theorem RxResetAt.cfg_eq {t : State} (h : RxResetAt s m l k t) : t.cfg = s.cfg := by rw [h.frame]

/-- One more step writes one register. -/
theorem RxResetReaches.writeWith (h : RxResetReaches s n m l k)
    (hstep : ∀ t, RxResetAt s m l k t →
      exec .rxReset t = .next ((t.regWrite (.mrx r) v).gotoWith .rx l' { t.chRx.loc with k := k' })) :
    RxResetReaches s (n + 1) (m.write r v) l' k' := by
  obtain ⟨t, hrun, ht⟩ := h
  have hmrx : t.mrx = m := by rw [ht.frame]
  refine ⟨_, execTimes_snoc hrun (hstep t ht), ?_, ht.operands, rfl, rfl⟩
  rw [← hmrx, ht.frame]
  rfl

theorem RxResetReaches.write (h : RxResetReaches s n m l k)
    (hstep : ∀ t, RxResetAt s m l k t → exec .rxReset t = .next ((t.regWrite (.mrx r) v).goto .rx l')) :
    RxResetReaches s (n + 1) (m.write r v) l' k :=
  h.writeWith fun t ht => by
    rw [hstep t ht, ← ht.index]
    rfl

/-- How many coefficients RX.RESET writes (R803). -/
def rxCoefs (s : State) : Nat := if s.chRx.opd.a2.getLsbD 2 then s.cfg.frCoefCount else 0

theorem rxCoefLabel_eq (s : State) : rxCoefLabel s = if 0 < rxCoefs s then .rr9 else .rr10 := by
  cases ha : s.chRx.opd.a2.getLsbD 2 <;> simp only [rxCoefLabel, rxCoefs, ha, Bool.false_eq_true, if_false, if_true,
    false_and, true_and, Nat.lt_irrefl]

theorem rxCoefs_eq (h : 0 < rxCoefs s) : rxCoefs s = s.cfg.frCoefCount := by
  unfold rxCoefs at h ⊢
  split at h
  next ha => exact if_pos ha
  · cases h

variable (hpc : s.chRx.pc = .rr1) (hi : s.rx.inited = true) (hw : s.worker.pc = .dead)
include hpc hi hw

/-- Up to RR8 the core is held in reset and the operands are written. -/
theorem rxResetReaches_held : RxResetReaches s 8 (s.mrx.held s.chRx.opd) (rxCoefLabel s) 0 := by
  have h1 : RxResetReaches s 1 s.mrx .rr2 s.chRx.loc.k :=
    ⟨_, execTimes_snoc rfl (exec_rr1_goes hpc hi hw), rfl, rfl, rfl, rfl⟩
  have h3 := (h1.write fun _ h => exec_rr2 h.pc).write fun _ h => exec_rr3 h.pc
  have h5 := (h3.write fun _ h => h.operands ▸ exec_rr4 h.pc).write fun _ h => h.operands ▸ exec_rr5 h.pc
  have h7 := (h5.write fun _ h => h.operands ▸ exec_rr6 h.pc).write fun _ h => h.operands ▸ exec_rr7 h.pc
  rw [ModemRx.held, ← bitWord_and_one, ← bitWord_and_one (s.chRx.opd.a2.getLsbD 1)]
  refine h7.writeWith (r := .detThresh) (v := s.chRx.opd.a3) fun t h => ?_
  rw [exec_rr8 h.pc, rxCoefLabel, rxCoefLabel, h.operands, h.cfg_eq]

variable (hcount : s.cfg.frCoefCount ≤ 4)
include hcount

/-- Before coefficient `k` those below it are written, one a step. -/
theorem rxResetReaches_coef (hk : k < rxCoefs s) :
    RxResetReaches s (8 + k) ((s.mrx.held s.chRx.opd).withCoefs s.chRx.opd k) .rr9 k := by
  induction k with
  | zero =>
    have hlabel : rxCoefLabel s = .rr9 := (rxCoefLabel_eq s).trans (if_pos hk)
    exact hlabel ▸ rxResetReaches_held hpc hi hw
  | succ k ih =>
    have hlast : k + 1 < s.cfg.frCoefCount := rxCoefs_eq (Nat.zero_lt_of_lt hk) ▸ hk
    rw [← ModemRx.withCoefs_write _ _ ⟨k, by omega⟩]
    refine (ih (Nat.lt_of_succ_lt hk)).writeWith fun t h => ?_
    rw [exec_rr9 h.pc (k := ⟨k, by omega⟩) h.index, if_pos (by rwa [h.cfg_eq]), h.operands]

/-- After the last coefficient, or after RR8 if none is asked for, the core is about to leave its reset. -/
theorem rxResetReaches_coefs : ∃ k,
    RxResetReaches s (8 + rxCoefs s) ((s.mrx.held s.chRx.opd).withCoefs s.chRx.opd (rxCoefs s)) .rr10 k := by
  cases hn : rxCoefs s with
  | zero =>
    have hlabel : rxCoefLabel s = .rr10 := (rxCoefLabel_eq s).trans (if_neg (by omega))
    exact ⟨0, hlabel ▸ rxResetReaches_held hpc hi hw⟩
  | succ k =>
    have hlast : k + 1 = s.cfg.frCoefCount := hn ▸ rxCoefs_eq (by omega)
    rw [← ModemRx.withCoefs_write _ _ ⟨k, by omega⟩]
    refine ⟨k, (rxResetReaches_coef hpc hi hw hcount (by omega)).write fun t h => ?_⟩
    rw [exec_rr9 h.pc (k := ⟨k, by omega⟩) h.index, if_neg (by rw [h.cfg_eq]; exact hlast.not_lt), h.operands]

/-- The whole run: the core out of reset and enabled, and the flag set. -/
theorem execTimes_rxReset : ∃ ls y, execTimes .rxReset (11 + rxCoefs s) s =
    .next ({ s with
      chRx := y, lines := ls, rx := { s.rx with configured := true }
      mrx := { (s.mrx.held s.chRx.opd).withCoefs s.chRx.opd (rxCoefs s) with reset := 0#32, rxEnable := 1#32 } }.finish
        .rx .ok [0#32]) := by
  obtain ⟨k, hcoefs⟩ := rxResetReaches_coefs hpc hi hw hcount
  obtain ⟨t, hrun, ht⟩ := (hcoefs.write fun _ h => exec_rr10 h.pc).write fun _ h => exec_rr11 h.pc
  have hrun' := execTimes_snoc hrun (exec_rr12 ht.pc)
  rw [show 8 + rxCoefs s + 1 + 1 + 1 = 11 + rxCoefs s by omega, ht.frame] at hrun'
  exact ⟨t.lines, t.chRx, hrun'⟩

end RxResetRun

/-- Settles O46: the checks and the writes by the equations of the labels, the run by `execTimes_rxReset`. -/
theorem rxResetConfigures : Obligations.RxResetConfigures := by
  unfold Obligations.RxResetConfigures
  refine ⟨fun s hpc => ⟨exec_rr1_notOpen hpc, exec_rr1_busy hpc, fun hi hw hcount => ?_⟩, fun s =>
    ⟨exec_rr1_goes, exec_rr2, exec_rr3, exec_rr4, exec_rr5, exec_rr6, exec_rr7, exec_rr8, fun k hpc hk => ?_, exec_rr10,
      exec_rr11, exec_rr12⟩⟩
  · obtain ⟨ls, y, hrun⟩ := execTimes_rxReset hpc hi hw hcount
    exact ⟨_, hrun, rfl, rfl, rfl, rfl, rfl⟩
  · rw [exec_rr9 hpc hk]
    fin_cases k <;> rfl

/-! ## RX.START and RX.STOP (R804, R805) -/

section StartStop

variable {s : State}

theorem exec_rxStart_notOpen (hpc : s.chRx.pc = .rxStart) (hi : s.rx.inited = false) :
    exec .rxStart s = .next (s.raise .rx .eNotOpen) := by
  simp only [exec, execRxStart, hpc, hi, if_true]

theorem exec_rxStart_enables (hpc : s.chRx.pc = .rxStart) (hi : s.rx.inited = true) :
    exec .rxStart s = .next ((s.regWrite (.mrx .rxEnable) 1#32).finish .rx .ok [0#32]) := by
  simp only [exec, execRxStart, hpc, hi, Bool.true_eq_false, if_false]

theorem exec_rp1_notOpen (hpc : s.chRx.pc = .rp1) (hi : s.rx.inited = false) :
    exec .rxStop s = .next (s.raise .rx .eNotOpen) := by
  simp only [exec, execRxStop, hpc, hi, if_true]

theorem exec_rp1_disables (hpc : s.chRx.pc = .rp1) (hi : s.rx.inited = true) :
    exec .rxStop s = .next ((s.regWrite (.mrx .rxEnable) 0#32).goto .rx .rp2) := by
  simp only [exec, execRxStop, hpc, hi, Bool.true_eq_false, if_false]

theorem exec_rp2 (hpc : s.chRx.pc = .rp2) : exec .rxStop s =
    .next ({ s with rx := { s.rx with done := if s.worker.pc = WLabel.dead then s.rx.done else true } }.finish .rx .ok
      [0#32]) := by
  have hdone : (s.rx.done || s.workerAlive) = if s.worker.pc = .dead then s.rx.done else true := by
    split
    next hw => rw [workerAlive_eq_false hw, Bool.or_false]
    next hw => rw [workerAlive_eq_true hw, Bool.or_true]
  simp only [exec, execRxStop, hpc, hdone]

theorem execTimes_rxStop (hpc : s.chRx.pc = .rp1) (hi : s.rx.inited = true) : ∃ ls, execTimes .rxStop 2 s =
    .next ({ s with
      mrx := { s.mrx with rxEnable := 0#32 }, lines := ls
      rx := { s.rx with done := if s.worker.pc = WLabel.dead then s.rx.done else true } }.finish .rx .ok [0#32]) :=
  ⟨_, execTimes_snoc (execTimes_snoc rfl (exec_rp1_disables hpc hi)) (exec_rp2 rfl)⟩

end StartStop

/-- A disabled core keeps its line low, whatever is queued (R150). -/
theorem State.level_mrx_disabled {s : State} (h : s.mrx.rxEnable = 0#32) : s.level .mrx = false := by
  simp [State.level, h]

/-- Settles O47: the branches of both commands; after RX.STOP the core is disabled. -/
theorem rxStartStopComplete : Obligations.RxStartStopComplete := by
  unfold Obligations.RxStartStopComplete
  refine fun s => ⟨exec_rxStart_notOpen, exec_rxStart_enables, exec_rp1_notOpen, fun hpc hi => ?_⟩
  obtain ⟨ls, hrun⟩ := execTimes_rxStop hpc hi
  exact ⟨_, hrun, rfl, rfl, State.level_mrx_disabled rfl, rfl, rfl, rfl, rfl⟩

end Sys2Proof.Machine
end

section
/-! SUPPORT. RX.RECEIVE step by step: the consumer with its waits, and the first header's checks (R810 to R815). -/

namespace Sys2Proof.Machine

/-- A hold until the worker is dead (R810, R820). -/
theorem ite_workerAlive {α : Type} (s : State) (x y : α) :
    (if s.workerAlive then x else y) = if s.worker.pc = .dead then y else x := by
  by_cases hw : s.worker.pc = .dead
  · rw [workerAlive_eq_false hw, if_pos hw]
    rfl
  · rw [workerAlive_eq_true hw, if_neg hw]
    rfl

section Consumer

variable {s : State}

/-! ## The labels -/

theorem exec_rv1 (hpc : s.chRx.pc = .rv1) : exec .rxReceive s = .next (rvCheck s) := by
  simp only [exec, execRxReceive, hpc]

theorem exec_rv2 (hpc : s.chRx.pc = .rv2) :
    exec .rxReceive s = .next (if s.worker.pc = .dead then s.goto .rx .rv3 else s) := by
  simp only [exec, execRxReceive, hpc, ite_workerAlive]
  split <;> rfl

theorem exec_rv3 (hpc : s.chRx.pc = .rv3) : exec .rxReceive s = .next (rvArm s) := by
  simp only [exec, execRxReceive, hpc]

theorem exec_rv4 (hpc : s.chRx.pc = .rv4) : exec .rxReceive s = .next (rvSpawn s) := by
  simp only [exec, execRxReceive, hpc]

/-- What the consumer waits for: a frame past the first `n`, or the worker's code (R812, R814). -/
def State.roused (s : State) (n : Nat) : Bool := decide (n < s.rx.count.toNat) || decide (s.rx.workerRet ≠ 0#32)

theorem exec_rv5 (hpc : s.chRx.pc = .rv5) : exec .rxReceive s = .next (rvWait (s.roused 0) .rv6 .rv6 s) := by
  simp only [exec, execRxReceive, hpc]
  rfl

theorem exec_rv6 (hpc : s.chRx.pc = .rv6) : exec .rxReceive s = .next (rvFirst s) := by
  simp only [exec, execRxReceive, hpc]

theorem exec_rv7 (hpc : s.chRx.pc = .rv7) : exec .rxReceive s = .next (rvValidate s) := by
  simp only [exec, execRxReceive, hpc]

theorem exec_rv8 (hpc : s.chRx.pc = .rv8) : exec .rxReceive s = .next (rvLoop s) := by
  simp only [exec, execRxReceive, hpc]

theorem exec_rv9 (hpc : s.chRx.pc = .rv9) :
    exec .rxReceive s = .next (rvWait (s.roused s.chRx.loc.c0.toNat) .rv8 .rv10 s) := by
  simp only [exec, execRxReceive, hpc]
  rfl

theorem exec_rv10 (hpc : s.chRx.pc = .rv10) : exec .rxReceive s = .next (rvLast s) := by
  simp only [exec, execRxReceive, hpc]

/-! ## The entry checks (R810) -/

theorem rvCheck_notOpen (h : s.rx.inited = false ∨ s.openRx = false) : rvCheck s = s.raise .rx .eNotOpen := if_pos h

theorem rvCheck_open (hi : s.rx.inited = true) (ho : s.openRx = true) : rvCheck s =
    if s.rx.configured = false then s.raise .rx .rxNotConfigured else s.goto .rx .rv2 :=
  if_neg (by simp [hi, ho])

/-! ## The waits (R812, R814) -/

theorem State.roused_iff {n : Nat} : s.roused n = true ↔ n < s.rx.count.toNat ∨ s.rx.workerRet ≠ 0#32 := by
  simp only [State.roused, Bool.or_eq_true, decide_eq_true_eq]

theorem State.roused_eq_false {n : Nat} (hc : s.rx.count.toNat ≤ n) (hr : s.rx.workerRet = 0#32) :
    s.roused n = false :=
  Bool.eq_false_iff.2 fun h => (State.roused_iff.1 h).elim (Nat.not_lt.2 hc) fun hne => hne hr

variable {n : Nat} {wake expire : Label}

theorem rvWait_wakes (hp : s.pick = .wake) (h : n < s.rx.count.toNat ∨ s.rx.workerRet ≠ 0#32) :
    rvWait (s.roused n) wake expire s = s.goto .rx wake := by
  simp only [rvWait, hp, State.roused_iff.2 h, if_true]

section Quiet

variable (hc : s.rx.count.toNat ≤ n) (hr : s.rx.workerRet = 0#32)
include hc hr

/-- The wait ends without its event at the deadline, or at any time under abstract time (R20). -/
theorem rvWait_expires (hp : s.pick = .expire) (ht : s.chRx.loc.deadline ≤ s.timeMs ∨ s.cfg.timeAbstract = true) :
    rvWait (s.roused n) wake expire s = s.goto .rx expire := by
  simp only [rvWait, hp, State.roused_eq_false hc hr, State.expired_unlatched.2 ht, if_true]

/-- Before its deadline the wait goes on. -/
theorem rvWait_holds (ht : s.timeMs < s.chRx.loc.deadline) (ha : s.cfg.timeAbstract = false) :
    rvWait (s.roused n) wake expire s = s := by
  have hexp : ¬ s.expired s.chRx.loc.deadline false = true := fun he =>
    (State.expired_unlatched.1 he).elim (Nat.not_le.2 ht) fun habs => Bool.false_ne_true (ha.symm.trans habs)
  unfold rvWait
  rw [State.roused_eq_false hc hr, if_neg hexp]
  split <;> rfl

end Quiet

/-! ## The tests of the count (R812, R814) -/

theorem State.packetComplete_iff : s.packetComplete = true ↔ s.rx.hdr0.numFrames.toNat ≤ s.rx.count.toNat :=
  decide_eq_true_iff

/-- RV8 tests the count before the worker's code. -/
theorem rvLoop_eq : rvLoop s =
    if s.rx.hdr0.numFrames.toNat ≤ s.rx.count.toNat then rvComplete s
    else if s.rx.workerRet ≠ 0#32 then s.endCycle .timedOut .rxTimeout []
    else s.gotoWith .rx .rv9 { s.chRx.loc with c0 := s.rx.count, deadline := s.timeMs + s.cfg.rxFrameDeadlineMs } := by
  simp only [rvLoop, State.packetComplete_iff]

theorem rvLast_eq : rvLast s =
    if s.rx.hdr0.numFrames.toNat ≤ s.rx.count.toNat then rvComplete s else s.endCycle .timedOut .rxTimeout [] := by
  simp only [rvLast, State.packetComplete_iff]

end Consumer

/-- Settles O48: each label by its equation, the waits by `rvWait`, the tests of the count by `rvLoop_eq` and `rvLast_eq`. -/
theorem rxReceiveSteps : Obligations.RxReceiveSteps := by
  unfold Obligations.RxReceiveSteps
  intro s x timedOut complete
  refine ⟨fun hpc => ?rv1, exec_rv2, exec_rv3, fun hpc => ⟨_, rfl, exec_rv4 hpc⟩, fun hpc => ?rv5, exec_rv6,
    fun hpc => ?rv8, fun hpc => ?rv9, fun hpc => ?rv10⟩
  case rv1 =>
    rw [exec_rv1 hpc]
    refine ⟨fun h => congrArg _ (rvCheck_notOpen h), fun hi ho hc => ?_, fun hi ho hc => ?_⟩
    · rw [rvCheck_open hi ho, if_pos hc]
    · rw [rvCheck_open hi ho, if_neg (by simp [hc])]
  case rv5 =>
    rw [exec_rv5 hpc]
    refine ⟨fun hp h => congrArg _ (rvWait_wakes hp h), fun hp hc hr ht => ?_, fun hc hr ht ha => ?_⟩
    · exact congrArg _ (rvWait_expires (by simp [hc]) hr hp ht)
    · exact congrArg _ (rvWait_holds (by simp [hc]) hr ht ha)
  case rv8 =>
    rw [exec_rv8 hpc, rvLoop_eq]
    refine ⟨fun h => congrArg _ (if_pos h), fun h hr => ?_, fun h hr => ?_⟩
    · rw [if_neg h.not_ge, if_pos hr]
      rfl
    · rw [if_neg h.not_ge, if_neg (by simp [hr])]
  case rv9 =>
    rw [exec_rv9 hpc]
    exact ⟨fun hp h => congrArg _ (rvWait_wakes hp h), fun hp hc hr ht => congrArg _ (rvWait_expires hc hr hp ht),
      fun hc hr ht ha => congrArg _ (rvWait_holds hc hr ht ha)⟩
  case rv10 =>
    rw [exec_rv10 hpc, rvLast_eq]
    rfl

/-! ## The first header (R813) -/

/-- How the first header's step ends, by the status of its checks: the header is kept, or the cycle fails. -/
def State.endValidation (s : State) (h : Hdr) (st : Status) : State :=
  if st = .ok then { s with rx := { s.rx with hdr0 := h } }.goto .rx .rv8 else s.endCycle .failed st []

theorem rvValidate_eq (s : State) : rvValidate s =
    let o := (s.tableAt 0).toNat
    (s.bufReadNote .rx o hdrSize).endValidation (s.decodeHdr .rx o) (hdrStatus s.cfg (s.decodeHdr .rx o)) := rfl

/-- What depends on the status of the first header, check by check in their order. -/
theorem apply_hdrStatus {α : Type} (f : Status → α) (c : Config) (h : Hdr) : f (hdrStatus c h) =
    if h.ident ≠ c.guid then f .rxInvalidGuid
    else if h.packSz = 0#32 then f .rxPackSzZero
    else if h.numFrames = 0#32 then f .rxNumFramesZero
    else if h.frameSz = 0#32 then f .rxFrameSzZero
    else if c.rxFrameSzMax < h.frameSz.toNat then f .rxFrameSzTooLarge
    else if h.mtu = 0#32 then f .rxMtuZero
    else f .ok := by
  simp only [hdrStatus, apply_ite f]

/-- Settles O49: the end of the step for each status that `hdrStatus` can give. -/
theorem firstHeaderValidated : Obligations.FirstHeaderValidated := by
  unfold Obligations.FirstHeaderValidated
  intro s hpc o h u failed
  rw [exec_rv7 hpc, rvValidate_eq]
  exact congrArg _ (apply_hdrStatus (u.endValidation h) s.cfg h)

end Sys2Proof.Machine
end

section
/-! SUPPORT. RX.READ step by step: its checks, the step for one entry and the run over all entries (R206, R820, R821). -/

namespace Sys2Proof.Machine

section Labels

variable {s : State}

theorem exec_rd1 (hpc : s.chRx.pc = .rd1) : exec .rxRead s = .next
    (if s.rx.inited = false ∨ s.openRx = false then s.raise .rx .eNotOpen else s.goto .rx .rd2) := by
  simp only [exec, execRxRead, hpc]
  split <;> rfl

theorem exec_rd2 (hpc : s.chRx.pc = .rd2) :
    exec .rxRead s = .next (if s.worker.pc = .dead then s.goto .rx .rd3 else s) := by
  simp only [exec, execRxRead, hpc, ite_workerAlive]
  split <;> rfl

theorem exec_rd3 (hpc : s.chRx.pc = .rd3) : exec .rxRead s = .next (rdStart s) := by
  simp only [exec, execRxRead, hpc]

theorem exec_rd4 (hpc : s.chRx.pc = .rd4) : exec .rxRead s = .next (rdEntry s) := by
  simp only [exec, execRxRead, hpc]

theorem exec_rd5 (hpc : s.chRx.pc = .rd5) : exec .rxRead s = .next (rdEnd s) := by
  simp only [exec, execRxRead, hpc]

end Labels

/-! ## One entry (R821) -/

section Entry

/-- Where the entry's frame begins. -/
def rdOffset (s : State) : Nat := (s.tableAt s.chRx.loc.j).toNat

/-- The entry's header, as it stands in the buffer. -/
def rdHdr (s : State) : Hdr := s.decodeHdr .rx (rdOffset s)

/-- The entry's payload. -/
def rdPayload (s : State) : List Byte := s.readMem (.buf .rx) (rdOffset s + hdrSize) (rdHdr s).frameSz.toNat

/-- The entry is not copied: its header or payload runs past the buffer, or the payload past the room left. -/
def RdSkips (s : State) : Prop :=
  s.cfg.bufSizeRx < rdOffset s + hdrSize ∨ s.cfg.bufSizeRx < rdOffset s + hdrSize + (rdHdr s).frameSz.toNat ∨
    s.chRx.opd.a1.toNat < s.chRx.loc.cur + (rdHdr s).frameSz.toNat

/-- The state after an entry that is not copied: the header is read only where it lies in the buffer. -/
theorem rdEntry_skips {s : State} (h : RdSkips s) : rdEntry s = rdNext s.chRx.loc (State.setCrcStatus { s with
    faultBufRace := s.faultBufRace ||
      (decide (rdOffset s + hdrSize ≤ s.cfg.bufSizeRx) && s.raced .rx (rdOffset s) hdrSize) } s.chRx.loc.j
    .notCopied) := by
  by_cases hhdr : s.cfg.bufSizeRx < rdOffset s + hdrSize
  · rw [decide_eq_false hhdr.not_ge, Bool.false_and, Bool.or_false]
    exact if_pos hhdr
  · rw [decide_eq_true (Nat.le_of_not_lt hhdr), Bool.true_and]
    exact (if_neg hhdr).trans (if_pos (h.resolve_left hhdr))

/-- The locals after an entry that is copied with verdict `v`. -/
def rdCopied (s : State) (v : Verdict) : Locals :=
  { s.chRx.loc with
    cur := s.chRx.loc.cur + (rdHdr s).frameSz.toNat
    valid := if v = .verified then s.chRx.loc.valid + (rdHdr s).frameSz.toNat else s.chRx.loc.valid }

/-- Whatever the verdict, no more bytes are counted as valid than copied. -/
theorem rdCopied_counted {s : State} (v : Verdict) (h : s.chRx.loc.valid ≤ s.chRx.loc.cur) :
    (rdCopied s v).valid ≤ (rdCopied s v).cur := by
  unfold rdCopied
  dsimp only
  split
  · exact Nat.add_le_add_right h _
  · exact h.trans (Nat.le_add_right _ _)

/-- The state after an entry that is copied with verdict `v`. -/
theorem rdEntry_copies {s : State} {v : Verdict} (h : ¬ RdSkips s) (hv : verify s.cfg (rdHdr s) (rdPayload s) = v) :
    rdEntry s = rdNext (rdCopied s v) (State.setCrcStatus (State.writeMem { s with
      faultBufRace := s.faultBufRace || s.raced .rx (rdOffset s) hdrSize ||
        s.raced .rx (rdOffset s + hdrSize) (rdHdr s).frameSz.toNat
      log := if v = .verified then s.log else s.log ++ [.crcEvent s.chRx.loc.j v] }
      .hostMem (s.chRx.opd.a0.toNat + s.chRx.loc.cur) (rdPayload s)) s.chRx.loc.j v) := by
  rw [RdSkips, not_or] at h
  have hcopy : rdEntry s = rdCopy s.chRx.loc (rdOffset s) (rdHdr s) (s.bufReadNote .rx (rdOffset s) hdrSize) :=
    (if_neg h.1).trans (if_neg h.2)
  subst hv
  rw [hcopy, rdCopied]
  by_cases hv : verify s.cfg (rdHdr s) (rdPayload s) = .verified
  · rw [if_pos hv, if_pos hv]
    exact if_pos hv
  · rw [if_neg hv, if_neg hv]
    exact if_neg hv

/-- The verdict of an entry that is marked. -/
theorem crcStatusAt_marked (x : Locals) (s : State) (j k : Nat) (v : Verdict) :
    (rdNext x (s.setCrcStatus j v)).crcStatusAt k = if k = j then v else s.crcStatusAt k := by
  have hget : (rdNext x (s.setCrcStatus j v)).crcStatusAt k =
      (Sparse.get? (Sparse.write s.rx.crcStatus j [v]) k).getD (verdictOfNat (Config.resetVerdict s.epoch k)) := rfl
  rw [hget, Sparse.get_write_single]
  split <;> rfl

/-- The step marks its own entry and touches nothing else of the reassembler. -/
theorem rdEntry_marks (s : State) : ∃ v, (rdEntry s).rx = { s.rx with
      crcStatus := Sparse.write s.rx.crcStatus s.chRx.loc.j [v] } ∧
    ∀ k, (rdEntry s).crcStatusAt k = if k = s.chRx.loc.j then v else s.crcStatusAt k := by
  by_cases h : RdSkips s
  · rw [rdEntry_skips h]
    exact ⟨_, rfl, fun k => crcStatusAt_marked ..⟩
  · rw [rdEntry_copies h rfl]
    exact ⟨_, rfl, fun k => crcStatusAt_marked ..⟩

theorem rdEntry_rx (s : State) : (rdEntry s).rx = { s.rx with crcStatus := (rdEntry s).rx.crcStatus } := by
  obtain ⟨v, hrx, -⟩ := rdEntry_marks s
  rw [hrx]

section Bytes

variable {s : State} (z : ByteSpace) (a : Nat)

theorem byteAt_rdEntry_skips (h : RdSkips s) : (rdEntry s).byteAt z a = s.byteAt z a := by
  rw [rdEntry_skips h]
  exact State.byteAt_congr z a (State.space_of_byteView rfl z) rfl

/-- A copied payload lands at the cursor of the destination. -/
theorem byteAt_rdEntry_copies (h : ¬ RdSkips s) : (rdEntry s).byteAt z a =
    (s.writeMem .hostMem (s.chRx.opd.a0.toNat + s.chRx.loc.cur) (rdPayload s)).byteAt z a := by
  rw [rdEntry_copies h rfl]
  exact State.byteAt_congr z a (State.space_of_byteView rfl z) rfl

theorem length_rdPayload (s : State) : (rdPayload s).length = (rdHdr s).frameSz.toNat := State.length_readMem ..

theorem readMem_rdEntry_copies (h : ¬ RdSkips s) :
    (rdEntry s).readMem .hostMem (s.chRx.opd.a0.toNat + s.chRx.loc.cur) (rdHdr s).frameSz.toNat = rdPayload s := by
  rw [State.readMem_congr fun k _ => byteAt_rdEntry_copies .hostMem _ h, ← length_rdPayload]
  exact State.readMem_writeMem_same ..

theorem byteAt_rdEntry_outside (h : ¬ RdSkips s) (ha : a < s.chRx.opd.a0.toNat + s.chRx.loc.cur ∨
    s.chRx.opd.a0.toNat + s.chRx.loc.cur + (rdHdr s).frameSz.toNat ≤ a) :
    (rdEntry s).byteAt .hostMem a = s.byteAt .hostMem a := by
  rw [byteAt_rdEntry_copies .hostMem a h]
  exact State.byteAt_writeMem_outside _ _ _ _ _ (by rwa [length_rdPayload])

end Bytes

end Entry

/-- Settles O51: the two branches of the step. -/
theorem rxReadEntryStep : Obligations.RxReadEntryStep := by
  unfold Obligations.RxReadEntryStep
  intro s hpc x o h p next
  obtain ⟨v, hrx, hmarks⟩ := rdEntry_marks s
  refine ⟨_, exec_rd4 hpc, fun hskips => ?skipped, fun hfit hroom => ?copied, by rw [hrx], fun k hk => ?_⟩
  case skipped =>
    have hskips : RdSkips s := hskips
    rw [rdEntry_skips hskips]
    exact ⟨rfl, (crcStatusAt_marked ..).trans (if_pos rfl)⟩
  case copied =>
    have hcopies : ¬ RdSkips s := by
      rintro (hhdr | hlong | hlong)
      · exact absurd ((Nat.le_add_right _ _).trans hfit) hhdr.not_ge
      · exact absurd hfit hlong.not_ge
      · exact absurd hroom hlong.not_ge
    refine ⟨_, rfl, ?_, ?_, readMem_rdEntry_copies hcopies, fun a ha => byteAt_rdEntry_outside a hcopies ha⟩
    · rw [rdEntry_copies hcopies rfl]
      rfl
    · rw [rdEntry_copies hcopies rfl]
      exact (crcStatusAt_marked ..).trans (if_pos rfl)
  · rw [hmarks, if_neg hk]

/-! ## The run over the entries (R820) -/

/-- RX.READ begun in `s` has gone through `k` entries: what it has copied fills the beginning of the destination. -/
structure RdReached (s : State) (k : Nat) (t : State) : Prop where
  operands : t.chRx.opd = s.chRx.opd
  pc : t.chRx.pc = if k < s.rx.count.toNat then .rd4 else .rd5
  index : t.chRx.loc.j = k
  total : t.chRx.loc.total = s.rx.count.toNat
  copied : t.chRx.loc.cur ≤ s.chRx.opd.a1.toNat
  counted : t.chRx.loc.valid ≤ t.chRx.loc.cur
  rx : t.rx = { s.rx with crcStatus := t.rx.crcStatus }
  outside : ∀ a, a < s.chRx.opd.a0.toNat ∨ s.chRx.opd.a0.toNat + t.chRx.loc.cur ≤ a →
    t.byteAt .hostMem a = s.byteAt .hostMem a
  buffers : ∀ e a, t.byteAt (.buf e) a = s.byteAt (.buf e) a

/-- What the step for one entry does to the loop: the cursor moves by the bytes copied, at most to the end of the room, and
only bytes between the two cursors change. -/
structure RdMoves (t u : State) : Prop where
  operands : u.chRx.opd = t.chRx.opd
  pc : u.chRx.pc = if t.chRx.loc.j + 1 < t.chRx.loc.total then .rd4 else .rd5
  index : u.chRx.loc.j = t.chRx.loc.j + 1
  total : u.chRx.loc.total = t.chRx.loc.total
  cursor : t.chRx.loc.cur ≤ u.chRx.loc.cur
  room : t.chRx.loc.cur ≤ t.chRx.opd.a1.toNat → u.chRx.loc.cur ≤ t.chRx.opd.a1.toNat
  counted : t.chRx.loc.valid ≤ t.chRx.loc.cur → u.chRx.loc.valid ≤ u.chRx.loc.cur
  outside : ∀ a, a < t.chRx.opd.a0.toNat + t.chRx.loc.cur ∨ t.chRx.opd.a0.toNat + u.chRx.loc.cur ≤ a →
    u.byteAt .hostMem a = t.byteAt .hostMem a
  buffers : ∀ e a, u.byteAt (.buf e) a = t.byteAt (.buf e) a

theorem rdEntry_moves (t : State) : RdMoves t (rdEntry t) := by
  by_cases h : RdSkips t
  · have hbytes := fun z a => byteAt_rdEntry_skips z a h
    have hloc : (rdEntry t).chRx = { t.chRx with
        pc := if t.chRx.loc.j + 1 < t.chRx.loc.total then .rd4 else .rd5
        loc := { t.chRx.loc with j := t.chRx.loc.j + 1 } } := by rw [rdEntry_skips h]; rfl
    constructor <;> simp only [hloc, hbytes, le_refl, imp_self, implies_true]
  · have hloc : (rdEntry t).chRx = { t.chRx with
        pc := if t.chRx.loc.j + 1 < t.chRx.loc.total then .rd4 else .rd5
        loc := { rdCopied t (verify t.cfg (rdHdr t) (rdPayload t)) with j := t.chRx.loc.j + 1 } } := by
      rw [rdEntry_copies h rfl]
      rfl
    have hroom : t.chRx.loc.cur + (rdHdr t).frameSz.toNat ≤ t.chRx.opd.a1.toNat :=
      Nat.le_of_not_lt fun hlong => h (.inr (.inr hlong))
    refine ⟨by rw [hloc], by rw [hloc], by rw [hloc], by rw [hloc]; rfl, ?_, ?_, ?_, ?_, ?_⟩
    · rw [hloc]
      exact Nat.le_add_right _ _
    · rw [hloc]
      exact fun _ => hroom
    · rw [hloc]
      exact rdCopied_counted _
    · rw [hloc]
      exact fun a ha => byteAt_rdEntry_outside a h (by rwa [Nat.add_assoc])
    · intro e a
      rw [byteAt_rdEntry_copies _ a h]
      exact State.byteAt_writeMem_other _ _ _ _ _ _ nofun

section Run

variable {s t : State} {k : Nat}

theorem rdStart_eSize (h : s.cfg.hostMemSize < s.chRx.opd.a0.toNat + s.chRx.opd.a1.toNat) :
    rdStart s = s.raise .rx .eSize := if_pos h

theorem rdStart_reached (h : s.chRx.opd.a0.toNat + s.chRx.opd.a1.toNat ≤ s.cfg.hostMemSize) :
    RdReached s 0 (rdStart s) := by
  have hstart : rdStart s = s.gotoWith .rx (if s.rx.count = 0#32 then .rd5 else .rd4)
      { s.chRx.loc with cur := 0, valid := 0, total := s.rx.count.toNat, j := 0 } := if_neg h.not_gt
  have hbytes : ∀ z a, (rdStart s).byteAt z a = s.byteAt z a := fun z a =>
    State.byteAt_congr z a (State.space_of_byteView (byteView_rdStart s) z) (by rw [hstart]; rfl)
  have hlabel : (if s.rx.count = 0#32 then Label.rd5 else .rd4) = if 0 < s.rx.count.toNat then .rd4 else .rd5 := by
    by_cases h0 : s.rx.count = 0#32
    · rw [if_pos h0, h0]
      rfl
    · rw [if_neg h0, if_pos (Nat.pos_of_ne_zero fun hn => h0 (BitVec.eq_of_toNat_eq hn))]
  refine ⟨?_, ?_, ?_, ?_, ?_, ?_, ?_, fun a _ => hbytes _ a, fun e a => hbytes _ a⟩ <;> rw [hstart]
  · rfl
  · exact hlabel
  · rfl
  · rfl
  · exact Nat.zero_le _
  · exact Nat.le_refl _
  · rfl

/-- One entry further. -/
theorem RdReached.next (h : RdReached s k t) : RdReached s (k + 1) (rdEntry t) := by
  have hm := rdEntry_moves t
  have hroom := hm.room
  have hout := hm.outside
  rw [h.operands] at hroom hout
  refine ⟨hm.operands.trans h.operands, ?_, ?_, hm.total.trans h.total, hroom h.copied, hm.counted h.counted, ?_,
    fun a ha => ?_, fun e a => (hm.buffers e a).trans (h.buffers e a)⟩
  · rw [hm.pc, h.index, h.total]
  · rw [hm.index, h.index]
  · rw [rdEntry_rx, h.rx]
  · have hcur := hm.cursor
    rw [hout a (by omega)]
    exact h.outside a (by omega)

/-- One step for each entry. -/
theorem execTimes_rdEntries (hpc : s.chRx.pc = .rd3) (h : s.chRx.opd.a0.toNat + s.chRx.opd.a1.toNat ≤ s.cfg.hostMemSize)
    (hk : k ≤ s.rx.count.toNat) : ∃ t, execTimes .rxRead (k + 1) s = .next t ∧ RdReached s k t := by
  induction k with
  | zero => exact ⟨_, execTimes_snoc rfl (exec_rd3 hpc), rdStart_reached h⟩
  | succ k ih =>
    obtain ⟨t, hrun, ht⟩ := ih (Nat.le_of_succ_le hk)
    exact ⟨_, execTimes_snoc hrun (exec_rd4 (ht.pc.trans (if_pos hk))), ht.next⟩

end Run

theorem toNat_u32_of_le {n : Nat} {w : U32} (h : n ≤ w.toNat) : (u32 n).toNat = n :=
  Nat.mod_eq_of_lt (Nat.lt_of_le_of_lt h w.isLt)

/-- Settles O50: the checks by their equations, the run by `execTimes_rdEntries` with the step that discards the table. -/
theorem rxReadCompletes : Obligations.RxReadCompletes := by
  unfold Obligations.RxReadCompletes
  refine fun s => ⟨fun hpc => ⟨fun h => ?_, fun hi ho => ?_⟩, exec_rd2, fun hpc h => ?_, fun hpc h => ?_⟩
  · rw [exec_rd1 hpc, if_pos h]
  · rw [exec_rd1 hpc, if_neg (by simp [hi, ho])]
  · rw [exec_rd3 hpc, rdStart_eSize h]
  · obtain ⟨t, hrun, ht⟩ := execTimes_rdEntries hpc h (Nat.le_refl _)
    have hend := execTimes_snoc hrun (exec_rd5 (ht.pc.trans (if_neg (Nat.lt_irrefl _))))
    have hbytes : ∀ z a, (rdEnd t).byteAt z a = t.byteAt z a := fun z a =>
      State.byteAt_congr z a (State.space_of_byteView rfl z) rfl
    have hrx : (rdEnd t).rx = { t.rx with count := 0#32, state := .idle } := rfl
    have hcur : ((rdEnd t).chRx.res.get 1).toNat = t.chRx.loc.cur := toNat_u32_of_le ht.copied
    have hvalid : ((rdEnd t).chRx.res.get 0).toNat = t.chRx.loc.valid := toNat_u32_of_le (ht.counted.trans ht.copied)
    rw [show s.rx.count.toNat + 1 + 1 = 2 + s.rx.count.toNat by omega] at hend
    refine ⟨rdEnd t, hend, rfl, rfl, rfl, ?_, ?_, ?_, ?_, fun a ha => ?_, fun e a => ?_⟩
    · rw [hvalid, hcur]
      exact ht.counted
    · rw [hcur]
      exact ht.copied
    · rw [show (rdEnd t).chRx.res.get 2 = u32 t.chRx.loc.total from rfl, ht.total]
      exact BitVec.ofNat_toNat ..
    · rw [hrx, ht.rx]
    · rw [hcur] at ha
      exact (hbytes _ a).trans (ht.outside a ha)
    · exact (hbytes _ a).trans (ht.buffers e a)

end Sys2Proof.Machine
end

section
/-! SUPPORT. The worker step by step: its wait and its tests, its DMA read as the run of `dmaStep` that it is, the publish and
the exit (R830 to R837). -/

namespace Sys2Proof.Machine

section Worker

variable {s : State}

/-! ## The labels -/

theorem workerStep_w1 (hpc : s.worker.pc = .w1) : workerStep s = s.wgoto (if s.rx.done then .wx else .w2) := by
  simp only [workerStep, hpc]
  split <;> rfl

theorem workerStep_w2 (hpc : s.worker.pc = .w2) :
    workerStep s = { s.irqUnmask .mrx with worker := { s.worker with t0 := s.timeMs, pc := .w3 } } := by
  simp only [workerStep, hpc]

theorem workerStep_w3 (hpc : s.worker.pc = .w3) : workerStep s = wWait s := by
  simp only [workerStep, hpc]

theorem workerStep_w4 (hpc : s.worker.pc = .w4) : workerStep s = wWoke s := by
  simp only [workerStep, hpc]

theorem workerStep_w5 (hpc : s.worker.pc = .w5) : workerStep s = wLength s := by
  simp only [workerStep, hpc]

theorem workerStep_w6 (hpc : s.worker.pc = .w6) : workerStep s = wPlace s := by
  simp only [workerStep, hpc]

theorem workerStep_w7 {l : DmaLabel} (hpc : s.worker.pc = .w7 l) : workerStep s = wRead l s := by
  simp only [workerStep, hpc]

theorem workerStep_w8 (hpc : s.worker.pc = .w8) : workerStep s = wPublish s := by
  simp only [workerStep, hpc]

theorem workerStep_wx (hpc : s.worker.pc = .wx) :
    workerStep s = (s.setLine .mrx { masked := true, latched := false }).wgoto .dead := by
  simp only [workerStep, hpc, State.irqMask]

/-! ## The wait (R407, R830) -/

theorem wWait_ends {r : IrqResult} {u : State}
    (h : s.irqWait .mrx s.worker.t0 s.cfg.rxIrqTimeoutMs = some (r, u)) :
    wWait s = { u with worker := { u.worker with r := r, pc := .w4 } } := by
  simp only [wWait, h]

/-! ## After the wait (R831, R836) -/

theorem wWoke_done (hd : s.rx.done = true) : wWoke s = s.wgoto .wx := if_pos hd

section Open

variable (hd : s.rx.done = false)
include hd

theorem wWoke_error (hr : s.worker.r = .error) : wWoke s = s.fatal .rxIrqError := by
  simp only [wWoke, hd, hr, Bool.false_eq_true, if_false]

theorem wWoke_pending (hr : s.worker.r = .pending) : wWoke s = s.wgoto .w5 := by
  simp only [wWoke, hd, hr, Bool.false_eq_true, if_false]

theorem wWoke_none (hr : s.worker.r = .none) : wWoke s = wTimeout s := by
  simp only [wWoke, hd, hr, Bool.false_eq_true, if_false]

end Open

theorem wTimeout_counted (hc : s.rx.count ≠ 0#32) : wTimeout s = s.wgoto .w1 := if_neg hc

/-- Before the first frame a timeout counts against the budget, and ends the worker past it. -/
theorem wTimeout_first (hc : s.rx.count = 0#32) : wTimeout s =
    let u : State := { s with rx := { s.rx with tmoCount := s.rx.tmoCount + 1 } }
    if s.cfg.rxIrqRetries < s.rx.tmoCount + 1 then u.fatal .rxTimeout else u.wgoto .w1 := if_pos hc

/-! ## The length and the place of a frame (R832, R841) -/

theorem lenInvalid_iff (c : Config) (len : U32) : lenInvalid c len = true ↔ len = 0#32 ∨ len ∈ c.rxLenInvalid := by
  simp only [lenInvalid, Bool.or_eq_true, beq_iff_eq, List.contains_iff_mem]

theorem wLength_invalid (h : lenInvalid s.cfg (s.regRead (.mrx .payloadLen)) = true) :
    wLength s = s.fatal .rxFrameInvalid := if_pos h

theorem wLength_valid (h : ¬ lenInvalid s.cfg (s.regRead (.mrx .payloadLen)) = true) : wLength s =
    { s with worker := { s.worker with len := s.regRead (.mrx .payloadLen), pc := .w6 } } := if_neg h

/-! ## The read (R833) -/

/-- No step of the DMA read touches the worker's own locals, and one that returns touches nothing. -/
theorem wRead_eq (l : DmaLabel) (s : State) : wRead l s =
    match dmaStep .rx l s.worker.dma s with
    | .go l' d t => { t with worker := { s.worker with pc := .w7 l', dma := d } }
    | .ret .ok _ t => { t with worker := { s.worker with pc := .w8 } }
    | .ret .eSize _ t =>
      { t with rx := { t.rx with workerRet := Status.rxOverflow.code }, worker := { s.worker with pc := .wx } }
    | .ret st _ t => { t with rx := { t.rx with workerRet := st.code }, worker := { s.worker with pc := .wx } }
    | .blocked => s := by
  unfold wRead
  cases hs : dmaStep .rx l s.worker.dma s with
  | go l' d t =>
    have hk := dmaStep_keeps .rx l s.worker.dma s
    rw [hs] at hk
    have hw : t.worker = s.worker := by rw [hk.1.eq_frame]
    simp only [hw]
  | ret st v t =>
    obtain rfl := eq_of_dmaStep_ret hs
    cases st <;> rfl
  | blocked => rfl

theorem wRead_eSize {l : DmaLabel} {v : U32} {t : State} (h : dmaStep .rx l s.worker.dma s = .ret .eSize v t) :
    wRead l s = t.fatal .rxOverflow := by
  simp only [wRead, h]

theorem wRead_eBus {l : DmaLabel} {v : U32} {t : State} (h : dmaStep .rx l s.worker.dma s = .ret .eBus v t) :
    wRead l s = t.fatal .eBus := by
  simp only [wRead, h]

end Worker

/-- Settles O52: each label by its equation, the read by `wRead_eq`, the publish by `wPublish_open`. -/
theorem workerSteps : Obligations.WorkerSteps := by
  unfold Obligations.WorkerSteps
  intro s w at_ fatal
  refine ⟨workerStep_dead, workerStep_w1, fun hpc => ?w2, fun hpc => ?w3, fun hpc => ?w4, fun hpc => ?w5, fun hpc => ?w6,
    fun l hpc => ?w7, fun hpc ho h => ?oversize, fun hpc hp hb => ?busError, fun hpc => ?back, fun hpc => ?w8,
    workerStep_wx⟩
  case w2 => exact ⟨_, workerStep_w2 hpc, s.line_irqUnmask .mrx⟩
  case w3 =>
    rw [workerStep_w3 hpc]
    refine ⟨fun hp hl => wWait_ends (State.irqWait_wake hp hl), fun hp hl ht => wWait_ends (State.irqWait_expire hp ?_),
      fun hp hb => wWait_ends (State.irqWait_fail hp hb)⟩
    rw [hl]
    exact State.expired_unlatched.2 ht
  case w4 =>
    rw [workerStep_w4 hpc]
    refine ⟨wWoke_done, wWoke_error, fun hd hr hc => ?_, fun hd hr hc ht => ?_, fun hd hr hc ht => ?_, wWoke_pending⟩
    · exact (wWoke_none hd hr).trans (wTimeout_counted hc)
    · rw [wWoke_none hd hr, wTimeout_first hc]
      exact if_neg (by omega)
    · rw [wWoke_none hd hr, wTimeout_first hc]
      exact if_pos (by omega)
  case w5 =>
    rw [workerStep_w5 hpc]
    exact ⟨fun h => wLength_invalid ((lenInvalid_iff _ _).2 h),
      fun h0 hmem => wLength_valid fun h => ((lenInvalid_iff _ _).1 h).elim h0 hmem⟩
  case w6 =>
    rw [workerStep_w6 hpc]
    exact ⟨fun hfull => if_pos hfull, fun hroom => ⟨_, rfl, rfl, if_neg hroom⟩⟩
  case w7 => exact (workerStep_w7 hpc).trans (wRead_eq l s)
  case oversize => exact (workerStep_w7 hpc).trans (wRead_eSize (dmaStep_badSize (e := .rx) ho h))
  case busError =>
    exact (workerStep_w7 hpc).trans (wRead_eBus (dmaStep_busError (e := .rx) (State.irqWait_fail hp hb)))
  case back => exact workerStep_w7 hpc
  case w8 =>
    rw [workerStep_w8 hpc]
    refine ⟨fun hd => if_pos hd, fun hd => ⟨_, rfl, ?_, ?_, fun j hj => ?_⟩⟩
    · rw [wPublish_open hd]
      rfl
    · rw [tableAt_wPublish hd, if_pos rfl]
    · rw [tableAt_wPublish hd, if_neg hj]

end Sys2Proof.Machine
end

section
/-! SUPPORT. `rx_state` and `done` follow the consumer's label under every move (R815, R860): what the statement says at each
kind of label, and which steps reach the two. -/

namespace Sys2Proof.Machine

/-! ## The labels of a cycle -/

/-- The consumer has begun a cycle: it is about to spawn the worker, or receives. -/
def Label.inCycle (p : Label) : Bool := decide (p = .rv4) || p.receiving

theorem Label.inCycle_eq_false {p : Label} (h : p.inCycle = false) : p ≠ .rv4 ∧ p.receiving = false := by
  simpa [Label.inCycle] using h

/-- Only RX.RECEIVE stands at a label of a cycle. -/
theorem eq_rxReceive_of_inCycle {i : Instr} {p : Label} (h : ownLabel i p = true) (hp : p.inCycle = true) :
    i = .rxReceive := by
  cases p <;> cases hp <;> cases i <;> first | rfl | cases h

theorem inCycle_firstLabel (i : Instr) : (firstLabel i).inCycle = false := by cases i <;> rfl

/-- No cycle is under way, as the reassembler shows it. -/
def Reassembler.Resting (x : Reassembler) : Prop := x.state ≠ .arming ∧ x.state ≠ .receiving ∧ x.done = true

namespace State.PhaseFollowsConsumer

variable {s t : State}

theorem iff_resting (hp : s.chRx.pc.inCycle = false) : s.PhaseFollowsConsumer ↔ s.rx.Resting := by
  obtain ⟨h4, hr⟩ := Label.inCycle_eq_false hp
  constructor
  · rintro ⟨harming, hreceiving, hdone⟩
    simp only [h4, hr, Bool.false_eq_true, iff_false, Bool.not_eq_false] at harming hreceiving hdone
    exact ⟨harming, hreceiving, hdone⟩
  · rintro ⟨harming, hreceiving, hdone⟩
    constructor <;> simp [harming, hreceiving, hdone, h4, hr]

theorem iff_receiving (hp : s.chRx.pc.receiving = true) :
    s.PhaseFollowsConsumer ↔ s.rx.state = .receiving ∧ s.rx.done = false := by
  have h4 : s.chRx.pc ≠ .rv4 := fun h => by simp [h, Label.receiving] at hp
  constructor
  · exact fun h => ⟨h.receiving.2 hp, h.notDone.2 hp⟩
  · rintro ⟨hstate, hdone⟩
    constructor <;> simp [hstate, hdone, hp, h4]

theorem iff_arming (hp : s.chRx.pc = .rv4) : s.PhaseFollowsConsumer ↔ s.rx.state = .arming ∧ s.rx.done = true := by
  have hr : s.chRx.pc.receiving = false := by rw [hp]; rfl
  constructor
  · exact fun h => ⟨h.arming.2 hp, Bool.eq_true_of_not_eq_false fun hd => by simp [h.notDone.1 hd] at hr⟩
  · rintro ⟨hstate, hdone⟩
    constructor <;> simp [hstate, hdone, hp, Label.receiving]

/-- Nothing that the statement speaks of has changed. -/
theorem congr (h : s.PhaseFollowsConsumer) (hstate : t.rx.state = s.rx.state) (hdone : t.rx.done = s.rx.done)
    (hpc : t.chRx.pc = s.chRx.pc) : t.PhaseFollowsConsumer :=
  ⟨by rw [hstate, hpc]; exact h.arming, by rw [hstate, hpc]; exact h.receiving, by rw [hdone, hpc]; exact h.notDone⟩

/-- The consumer moves from a label to one of the same kind, neither of them RV4. -/
theorem relabel {p : Label} (h : s.PhaseFollowsConsumer) (hpc : s.chRx.pc = p) (hstate : t.rx.state = s.rx.state)
    (hdone : t.rx.done = s.rx.done) (hs4 : p ≠ .rv4) (ht4 : t.chRx.pc ≠ .rv4)
    (hkind : t.chRx.pc.receiving = p.receiving) : t.PhaseFollowsConsumer := by
  subst hpc
  refine ⟨?_, by rw [hstate, hkind]; exact h.receiving, by rw [hdone, hkind]; exact h.notDone⟩
  rw [hstate, h.arming]
  exact iff_of_false hs4 ht4

end State.PhaseFollowsConsumer

open State.PhaseFollowsConsumer (iff_resting iff_receiving iff_arming)

/-! ## RX.RECEIVE (R810 to R815) -/

section Receive

variable {s : State}

theorem endCycle_follows {u : State} {ph : RxPhase} {st : Status} {vs : List U32} (ha : ph ≠ .arming)
    (hr : ph ≠ .receiving) : (u.endCycle ph st vs).PhaseFollowsConsumer :=
  (iff_resting rfl).2 ⟨ha, hr, rfl⟩

theorem rvWait_follows {l onWake onExpire : Label} (h : s.PhaseFollowsConsumer) (hpc : s.chRx.pc = l)
    (hl : l.receiving = true) (p : Bool) (hw : onWake.receiving = true) (he : onExpire.receiving = true) :
    (rvWait p onWake onExpire s).PhaseFollowsConsumer := by
  have h4 : ∀ {l : Label}, l.receiving = true → l ≠ .rv4 := fun hr h => by simp [h, Label.receiving] at hr
  have hgoto : ∀ {l' : Label}, l'.receiving = true → (s.goto .rx l').PhaseFollowsConsumer := fun hr =>
    h.relabel hpc rfl rfl (h4 hl) (h4 hr) (hr.trans hl.symm)
  unfold rvWait
  split
  · split
    · exact hgoto hw
    · exact h
  · split
    · exact hgoto he
    · exact h
  · exact h

/-- The consumer's own steps: RV3 arms, RV4 begins to receive, and every end of the cycle sets a terminal state. -/
theorem execRxReceive_follows (h : s.PhaseFollowsConsumer) :
    leadsTo State.PhaseFollowsConsumer (execRxReceive s) := by
  unfold execRxReceive
  split
  next hpc =>
    unfold rvCheck
    split
    · exact h.relabel hpc rfl rfl nofun nofun rfl
    · split <;> exact h.relabel hpc rfl rfl nofun nofun rfl
  next hpc =>
    split
    · exact h
    · exact h.relabel hpc rfl rfl nofun nofun rfl
  next hpc =>
    obtain ⟨-, -, hdone⟩ := (iff_resting (by rw [hpc]; rfl)).1 h
    exact (iff_arming rfl).2 ⟨rfl, hdone⟩
  · exact (iff_receiving rfl).2 ⟨rfl, rfl⟩
  next hpc => exact rvWait_follows h hpc rfl _ rfl rfl
  next hpc =>
    unfold rvFirst
    split
    · exact endCycle_follows nofun nofun
    · exact h.relabel hpc rfl rfl nofun nofun rfl
  next hpc =>
    unfold rvValidate
    dsimp only
    split
    · exact h.relabel hpc rfl rfl nofun nofun rfl
    · exact endCycle_follows nofun nofun
  next hpc =>
    unfold rvLoop
    split
    · exact endCycle_follows nofun nofun
    · split
      · exact endCycle_follows nofun nofun
      · exact h.relabel hpc rfl rfl nofun nofun rfl
  next hpc => exact rvWait_follows h hpc rfl _ rfl rfl
  · unfold rvLast
    split <;> exact endCycle_follows nofun nofun
  · trivial

end Receive

/-! ## The other commands -/

section Commands

variable {i : Instr} {s t : State}

theorem execRxInit_resting (h : s.rx.Resting) : leadsTo (fun t => t.rx.Resting) (execRxInit s) := by
  unfold execRxInit
  split
  · split
    · exact h
    · split
      · exact ⟨nofun, nofun, rfl⟩
      next hopen => rcases openEngine_cases hopen with rfl | rfl <;> exact h
  · trivial

theorem execRxStop_resting (h : s.rx.Resting) : leadsTo (fun t => t.rx.Resting) (execRxStop s) := by
  obtain ⟨ha, hr, hdone⟩ := h
  unfold execRxStop
  split
  · split <;> exact ⟨ha, hr, hdone⟩
  · exact ⟨ha, hr, by simp [hdone]⟩
  · trivial

theorem execRxRead_resting (h : s.rx.Resting) : leadsTo (fun t => t.rx.Resting) (execRxRead s) := by
  unfold execRxRead
  split
  · split <;> exact h
  · split <;> exact h
  · unfold rdStart
    dsimp only
    split <;> exact h
  · rw [leadsTo, rdEntry_rx]
    exact h
  · exact ⟨nofun, nofun, h.2.2⟩
  · trivial

theorem execRxClose_resting (h : s.rx.Resting) : leadsTo (fun t => t.rx.Resting) (execRxClose s) := by
  obtain ⟨ha, hr, hdone⟩ := h
  unfold execRxClose
  split
  · split <;> exact ⟨ha, hr, hdone⟩
  · exact ⟨ha, hr, rfl⟩
  · split <;> exact ⟨ha, hr, hdone⟩
  · exact ⟨ha, hr, hdone⟩
  · split <;> exact ⟨ha, hr, hdone⟩
  · split <;> exact ⟨ha, hr, hdone⟩
  · exact ⟨nofun, nofun, hdone⟩
  · trivial

/-- No command of CH_RX but RX.RECEIVE begins a cycle. -/
theorem exec_resting (hi : i ≠ .rxReceive) (hc : i.channel = .rx) (hs : s.rx.Resting) (h : exec i s = .next t) :
    t.rx.Resting := by
  rcases exec_writesOnly h with ⟨hx, -⟩ | ⟨-, hp⟩ | ⟨hx, -⟩
  · cases hc.symm.trans hx
  · cases i with
    | rxReceive => exact absurd rfl hi
    | rxInit => exact leadsTo_of_next (execRxInit_resting hs) h
    | rxStop => exact leadsTo_of_next (execRxStop_resting hs) h
    | rxRead => exact leadsTo_of_next (execRxRead_resting hs) h
    | rxClose => exact leadsTo_of_next (execRxClose_resting hs) h
    | dmaOpen _ | dmaWrite _ _ _ | codecEncode _ | codecDecode _ | codecCrc _ => rw [hp]; exact hs
    | dmaRead _ | dmaClose _ | rxReset | rxStart => rw [hp.1]; exact hs
    | _ => exact False.elim hp
  · cases hc.symm.trans hx

theorem inCycle_of_ownLabel {p : Label} (hi : i ≠ .rxReceive) (h : ownLabel i p = true) : p.inCycle = false :=
  Bool.eq_false_iff.2 fun hp => hi (eq_rxReceive_of_inCycle h hp)

theorem exec_follows (hs : s.PhaseFollowsConsumer) (h : exec i s = .next t) : t.PhaseFollowsConsumer := by
  by_cases hc : i.channel = .rx
  · by_cases hi : i = .rxReceive
    · subst hi
      exact leadsTo_of_next (execRxReceive_follows hs) h
    · obtain ⟨-, -, -, here, there⟩ := exec_steps h
      rw [hc] at here there
      have hrest := (iff_resting (inCycle_of_ownLabel hi here)).1 hs
      refine (iff_resting ?_).2 (exec_resting hi hc hrest h)
      rcases there with ⟨-, hidle⟩ | ⟨-, hl⟩
      · exact (congrArg Label.inCycle hidle :)
      · exact inCycle_of_ownLabel hi hl
  · obtain ⟨-, -, hrx, -⟩ := State.receiver_eq (exec_receiver_other h hc)
    exact hs.congr (by rw [hrx]) (by rw [hrx]) (congrArg Chan.pc ((exec_steps h).others .rx (Ne.symm hc)))

end Commands

/-! ## The worker (R830) -/

/-- No step of the worker touches `rx_state` or `done`. -/
def KeepsPhase (s t : State) : Prop := t.rx.state = s.rx.state ∧ t.rx.done = s.rx.done

theorem keepsPhase_wWoke (s : State) : KeepsPhase s (wWoke s) := by
  unfold wWoke
  split
  · exact ⟨rfl, rfl⟩
  · split
    · exact ⟨rfl, rfl⟩
    · unfold wTimeout
      split
      · dsimp only
        split <;> exact ⟨rfl, rfl⟩
      · exact ⟨rfl, rfl⟩
    · exact ⟨rfl, rfl⟩

theorem keepsPhase_wRead (l : DmaLabel) (s : State) : KeepsPhase s (wRead l s) := by
  unfold wRead
  split
  next h =>
    have hk := dmaStep_keeps .rx l s.worker.dma s
    rw [h] at hk
    rw [hk.1.eq_frame]
    exact ⟨rfl, rfl⟩
  next h => exact eq_of_dmaStep_ret h ▸ ⟨rfl, rfl⟩
  next h => exact eq_of_dmaStep_ret h ▸ ⟨rfl, rfl⟩
  next h => exact eq_of_dmaStep_ret h ▸ ⟨rfl, rfl⟩
  · exact ⟨rfl, rfl⟩

theorem keepsPhase_workerStep (s : State) : KeepsPhase s (workerStep s) := by
  unfold workerStep
  split
  · exact ⟨rfl, rfl⟩
  · split <;> exact ⟨rfl, rfl⟩
  · exact ⟨rfl, rfl⟩
  · rw [KeepsPhase, wWait_rx]
    exact ⟨rfl, rfl⟩
  · exact keepsPhase_wWoke s
  · unfold wLength
    dsimp only
    split <;> exact ⟨rfl, rfl⟩
  · unfold wPlace
    split <;> exact ⟨rfl, rfl⟩
  · exact keepsPhase_wRead _ s
  · unfold wPublish
    split <;> exact ⟨rfl, rfl⟩
  · exact ⟨rfl, rfl⟩

/-! ## Every move -/

section Moves

variable {s t : State}

/-- A move that leaves the receiver and the consumer's label. -/
theorem State.PhaseFollowsConsumer.of_receiver (h : s.PhaseFollowsConsumer) (hv : t.receiver = s.receiver)
    (hpc : t.chRx.pc = s.chRx.pc) : t.PhaseFollowsConsumer := by
  obtain ⟨-, -, hrx, -⟩ := State.receiver_eq hv
  exact h.congr (by rw [hrx]) (by rw [hrx]) hpc

/-- The host moves the consumer's label only by an issue to the idle channel (R18). -/
theorem hostStep_chRx_idle {a : HostAct} (h : hostStep a s = .next t) :
    t.chRx.pc = s.chRx.pc ∨ s.chRx.busy = false ∧ t.chRx.pc.inCycle = false := by
  rcases hostStep_eq_next h with ⟨c, args, rfl⟩ | ⟨w, rfl⟩ | hk
  · exact .inl (by cases c <;> rfl)
  · rcases s.issue_cases w with ⟨i, -, hb, hi⟩ | ⟨st, hi⟩ <;> rw [hi]
    · by_cases hc : Channel.rx = i.channel
      · have hpc := s.pc_begin i w
        rw [← hc] at hb hpc
        exact .inr ⟨hb, (congrArg Label.inCycle hpc).trans (inCycle_firstLabel i)⟩
      · exact .inl (congrArg Chan.pc (s.chan_begin_other i w hc))
    · exact .inl rfl
  · exact .inl (congrArg Chan.pc (hk.chan .rx))

/-- An idle channel stands at the idle label. -/
theorem State.Labelled.pc_idle (h : s.Labelled) {c : Channel} (hb : (s.chan c).busy = false) : (s.chan c).pc = .idle := by
  rcases h c with ⟨-, hpc⟩ | ⟨hbusy, -⟩
  · exact hpc
  · exact absurd (hb.symm.trans hbusy) nofun

theorem hostStep_follows {a : HostAct} (hl : s.Labelled) (hs : s.PhaseFollowsConsumer) (h : hostStep a s = .next t) :
    t.PhaseFollowsConsumer := by
  have hv := hostStep_receiver h
  rcases hostStep_chRx_idle h with hpc | ⟨hb, hpc⟩
  · exact hs.of_receiver hv hpc
  · obtain ⟨-, -, hrx, -⟩ := State.receiver_eq hv
    have hidle : s.chRx.pc = .idle := hl.pc_idle (c := .rx) hb
    rw [iff_resting hpc, hrx]
    exact (iff_resting (by rw [hidle]; rfl)).1 hs

theorem moveBody_follows {m : Move} (hl : s.Labelled) (hs : s.PhaseFollowsConsumer) (h : moveBody m s = .next t) :
    t.PhaseFollowsConsumer := by
  cases m with
  | host a => exact hostStep_follows hl hs h
  | channel c p =>
    have hs' : ({ s with pick := p } : State).PhaseFollowsConsumer := hs.congr rfl rfl rfl
    rcases channelStep_eq_next h with ⟨-, rfl⟩ | ⟨-, i, -, -, hi⟩
    · exact hs'
    · exact exec_follows hs' hi
  | worker p =>
    cases h
    obtain ⟨hstate, hdone⟩ := keepsPhase_workerStep { s with pick := p }
    exact hs.congr hstate hdone (workerStep_pc _)
  | dmac e =>
    cases h
    exact hs.of_receiver (dmacStep_receiver e s) (congrArg Chan.pc ((keepsChannels_dmacStep e s).chan .rx))
  | modemRx len f =>
    cases h
    exact hs.of_receiver (modemRxStep_receiver len f s)
      (congrArg Chan.pc ((keepsChannels_modemRxStep len f s).chan .rx))
  | modemTx =>
    cases h
    exact hs
  | clock =>
    cases h
    exact hs.congr rfl rfl rfl
  | reset =>
    cases h
    exact (iff_resting rfl).2 ⟨nofun, nofun, rfl⟩

end Moves

/-- Settles O53: taking the next move and the latch rule reach none of the three, and every move keeps them together. -/
theorem phaseKeepsFollowingConsumer : Obligations.PhaseKeepsFollowingConsumer := by
  unfold Obligations.PhaseKeepsFollowingConsumer
  intro s t hl hs h
  obtain ⟨u, hu, rfl⟩ := act_eq_next (step_eq_next h).2
  have hnext : s.nextMove.2.Labelled ∧ s.nextMove.2.PhaseFollowsConsumer := by
    rw [State.nextMove_frame]
    exact ⟨hl, hs.congr rfl rfl rfl⟩
  obtain ⟨hl', hs'⟩ := hnext
  exact (moveBody_follows hl' hs' hu).congr rfl rfl rfl

end Sys2Proof.Machine
end

section
/-! SUPPORT. No step is refused, and none stops but a host access past `HOSTMEM` (R11, R19, R922): a command answers a next
state at every label of its own, so does every agent but the host, and the host does within the size of `HOSTMEM`. -/

namespace Sys2Proof.Machine

/-- The answer is a next state. -/
def leadsOn : Result → Prop
  | .next _ => True
  | _ => False

theorem leadsOn_next (t : State) : leadsOn (.next t) := trivial

theorem eq_next_of_leadsOn {r : Result} (h : leadsOn r) : ∃ t, r = .next t := by
  cases r with
  | next t => exact ⟨t, rfl⟩
  | fault f => exact h.elim
  | refused x => exact h.elim

/-! ## The commands (R14, R19)

Every arm of a command's procedure at a label of its own answers a next state; the last arm is for the labels of other
commands, which the hypothesis excludes. -/

section Commands

variable {e : Engine} {s : State}

/-! ### BUS commands (R410 to R414) -/

theorem execRegRead_leadsOn {sp : Space} (h : ownLabel (.regRead sp) s.chBus.pc = true) :
    leadsOn (execRegRead sp s) := by
  unfold execRegRead
  split
  · split <;> trivial
  · simp_all [ownLabel]

theorem execRegWrite_leadsOn {sp : Space} (h : ownLabel (.regWrite sp) s.chBus.pc = true) :
    leadsOn (execRegWrite sp s) := by
  unfold execRegWrite
  split
  · split <;> trivial
  · simp_all [ownLabel]

theorem execIrqMask_leadsOn {sp : Space} (h : ownLabel (.irqMask sp) s.chBus.pc = true) :
    leadsOn (execIrqMask sp s) := by
  unfold execIrqMask
  split
  · trivial
  · simp_all [ownLabel]

theorem execIrqUnmask_leadsOn {sp : Space} (h : ownLabel (.irqUnmask sp) s.chBus.pc = true) :
    leadsOn (execIrqUnmask sp s) := by
  unfold execIrqUnmask
  split
  · trivial
  · simp_all [ownLabel]

theorem execIrqWait_leadsOn {sp : Space} (h : ownLabel (.irqWait sp) s.chBus.pc = true) :
    leadsOn (execIrqWait sp s) := by
  unfold execIrqWait
  split
  · split <;> trivial
  · simp_all [ownLabel]

/-! ### DMA commands (R502, R503, R506, R508) -/

theorem dmaCommand_leadsOn (e : Engine) (cyc cnf : Bool) (l : DmaLabel) (s : State) :
    leadsOn (dmaCommand e cyc cnf l s) := by
  unfold dmaCommand
  dsimp only
  split <;> trivial

theorem execDmaOpen_leadsOn (h : ownLabel (.dmaOpen e) (s.chan e.channel).pc = true) : leadsOn (execDmaOpen e s) := by
  unfold execDmaOpen
  split
  · split <;> trivial
  · simp_all [ownLabel]

theorem execDmaWrite_leadsOn {cyc cnf : Bool} (h : ownLabel (.dmaWrite e cyc cnf) (s.chan e.channel).pc = true) :
    leadsOn (execDmaWrite e cyc cnf s) := by
  unfold execDmaWrite
  split
  · split
    · trivial
    · exact dmaCommand_leadsOn ..
  · simp_all [ownLabel]

theorem execDmaRead_leadsOn (h : ownLabel (.dmaRead e) (s.chan e.channel).pc = true) : leadsOn (execDmaRead e s) := by
  unfold execDmaRead
  split
  · split
    · trivial
    · split
      · trivial
      · exact dmaCommand_leadsOn ..
  · simp_all [ownLabel]

theorem execDmaClose_leadsOn (h : ownLabel (.dmaClose e) (s.chan e.channel).pc = true) :
    leadsOn (execDmaClose e s) := by
  unfold execDmaClose
  split
  · split
    · trivial
    · split <;> trivial
  · trivial
  · simp_all [ownLabel]

/-! ### CODEC commands (R606 to R608) -/

theorem encodeFetch_leadsOn (e : Engine) (s : State) : leadsOn (encodeFetch e s) := by
  unfold encodeFetch
  dsimp only
  split
  · trivial
  · split
    · trivial
    · split <;> trivial

theorem decodeFetch_leadsOn (e : Engine) (s : State) : leadsOn (decodeFetch e s) := by
  unfold decodeFetch
  dsimp only
  split
  · trivial
  · split
    · trivial
    · split <;> trivial

theorem execCodecEncode_leadsOn (h : ownLabel (.codecEncode e) (s.chan e.channel).pc = true) :
    leadsOn (execCodecEncode e s) := by
  unfold execCodecEncode
  split
  · exact encodeFetch_leadsOn e s
  · trivial
  · simp_all [ownLabel]

theorem execCodecDecode_leadsOn (h : ownLabel (.codecDecode e) (s.chan e.channel).pc = true) :
    leadsOn (execCodecDecode e s) := by
  unfold execCodecDecode
  split
  · exact decodeFetch_leadsOn e s
  · trivial
  · simp_all [ownLabel]

theorem execCodecCrc_leadsOn (h : ownLabel (.codecCrc e) (s.chan e.channel).pc = true) :
    leadsOn (execCodecCrc e s) := by
  unfold execCodecCrc
  dsimp only
  split
  · split
    · trivial
    · split <;> trivial
  · simp_all [ownLabel]

/-! ### TX commands (R701 to R705, R720) -/

theorem execTxInit_leadsOn (h : ownLabel .txInit s.chTx.pc = true) : leadsOn (execTxInit s) := by
  unfold execTxInit
  split
  · split <;> trivial
  · simp_all [ownLabel]

theorem execTxReset_leadsOn (h : ownLabel .txReset s.chTx.pc = true) : leadsOn (execTxReset s) := by
  unfold execTxReset
  split
  case h_1 => split <;> trivial
  case h_5 => simp_all [ownLabel]
  all_goals trivial

theorem execTxWrite_leadsOn (h : ownLabel .txWrite s.chTx.pc = true) : leadsOn (execTxWrite s) := by
  unfold execTxWrite
  split
  case h_12 => simp_all [ownLabel]
  all_goals trivial

theorem execTxClose_leadsOn (h : ownLabel .txClose s.chTx.pc = true) : leadsOn (execTxClose s) := by
  unfold execTxClose
  split
  · split <;> trivial
  · trivial
  · simp_all [ownLabel]

theorem execTxSetMtu_leadsOn (h : ownLabel .txSetMtu s.chTx.pc = true) : leadsOn (execTxSetMtu s) := by
  unfold execTxSetMtu
  split
  · split <;> trivial
  · simp_all [ownLabel]

/-! ### RX commands (R801 to R805, R810, R820) -/

theorem execRxInit_leadsOn (h : ownLabel .rxInit s.chRx.pc = true) : leadsOn (execRxInit s) := by
  unfold execRxInit
  split
  · split
    · trivial
    · split <;> trivial
  · simp_all [ownLabel]

theorem execRxReset_leadsOn (h : ownLabel .rxReset s.chRx.pc = true) : leadsOn (execRxReset s) := by
  unfold execRxReset
  dsimp only
  split
  case h_1 =>
    split
    · trivial
    · split <;> trivial
  case h_13 => simp_all [ownLabel]
  all_goals trivial

theorem execRxStart_leadsOn (h : ownLabel .rxStart s.chRx.pc = true) : leadsOn (execRxStart s) := by
  unfold execRxStart
  split
  · split <;> trivial
  · simp_all [ownLabel]

theorem execRxStop_leadsOn (h : ownLabel .rxStop s.chRx.pc = true) : leadsOn (execRxStop s) := by
  unfold execRxStop
  split
  · split <;> trivial
  · trivial
  · simp_all [ownLabel]

theorem execRxReceive_leadsOn (h : ownLabel .rxReceive s.chRx.pc = true) : leadsOn (execRxReceive s) := by
  unfold execRxReceive
  split
  case h_2 => split <;> trivial
  case h_11 => simp_all [ownLabel]
  all_goals trivial

theorem execRxRead_leadsOn (h : ownLabel .rxRead s.chRx.pc = true) : leadsOn (execRxRead s) := by
  unfold execRxRead
  split
  case h_1 => split <;> trivial
  case h_2 => split <;> trivial
  case h_6 => simp_all [ownLabel]
  all_goals trivial

theorem execRxClose_leadsOn (h : ownLabel .rxClose s.chRx.pc = true) : leadsOn (execRxClose s) := by
  unfold execRxClose
  split
  case h_1 => split <;> trivial
  case h_3 => split <;> trivial
  case h_8 => simp_all [ownLabel]
  all_goals trivial

/-! ### Every command -/

theorem exec_leadsOn {i : Instr} (h : ownLabel i (s.chan i.channel).pc = true) : leadsOn (exec i s) := by
  cases i with
  | regRead sp => exact execRegRead_leadsOn h
  | regWrite sp => exact execRegWrite_leadsOn h
  | irqMask sp => exact execIrqMask_leadsOn h
  | irqUnmask sp => exact execIrqUnmask_leadsOn h
  | irqWait sp => exact execIrqWait_leadsOn h
  | dmaOpen e => exact execDmaOpen_leadsOn h
  | dmaWrite e cyc cnf => exact execDmaWrite_leadsOn h
  | dmaRead e => exact execDmaRead_leadsOn h
  | dmaClose e => exact execDmaClose_leadsOn h
  | codecEncode e => exact execCodecEncode_leadsOn h
  | codecDecode e => exact execCodecDecode_leadsOn h
  | codecCrc e => exact execCodecCrc_leadsOn h
  | txInit => exact execTxInit_leadsOn h
  | txReset => exact execTxReset_leadsOn h
  | txWrite => exact execTxWrite_leadsOn h
  | txClose => exact execTxClose_leadsOn h
  | txSetMtu => exact execTxSetMtu_leadsOn h
  | rxInit => exact execRxInit_leadsOn h
  | rxReset => exact execRxReset_leadsOn h
  | rxStart => exact execRxStart_leadsOn h
  | rxStop => exact execRxStop_leadsOn h
  | rxReceive => exact execRxReceive_leadsOn h
  | rxRead => exact execRxRead_leadsOn h
  | rxClose => exact execRxClose_leadsOn h

end Commands

/-! ## Every move (R11, R17, R19) -/

/-- A labelled channel answers a next state: it is idle, or at a label of the command in its `CMD`. -/
theorem channelStep_leadsOn {s : State} (hs : s.Labelled) (c : Channel) : leadsOn (channelStep c s) := by
  obtain ⟨hb, -⟩ | ⟨hb, i, hd, rfl, hl⟩ := hs c
  · exact channelStep_idle hb ▸ leadsOn_next s
  · rw [channelStep_eq_exec hb hd rfl]
    exact exec_leadsOn hl

/-- The move is a host read or write of bytes that runs past the size of `HOSTMEM`. -/
def pastHostMem (c : Config) (m : Move) : Prop :=
  (∃ a n, m = .host (.readMem a n) ∧ c.hostMemSize < a + n) ∨
    ∃ a bs, m = .host (.writeMem a bs) ∧ c.hostMemSize < a + bs.length

/-- The answer is a next state, or the stop of a host access past `HOSTMEM` (R11, log 13). -/
def answersMove (c : Config) (m : Move) (r : Result) : Prop :=
  leadsOn r ∨ r = .fault .hostMemRange ∧ pastHostMem c m

theorem hostStep_answers (a : HostAct) (s : State) : answersMove s.cfg (.host a) (hostStep a s) := by
  cases a with
  | writeArg c i v =>
    refine .inl ?_
    unfold hostStep
    dsimp only
    split <;> trivial
  | issue w => exact .inl trivial
  | readReg r =>
    refine .inl ?_
    unfold hostStep
    dsimp only
    split <;> trivial
  | readMem a n =>
    by_cases h : a + n ≤ s.cfg.hostMemSize
    · exact .inl (hostStep_readMem h ▸ leadsOn_next _)
    · exact .inr ⟨if_neg h, .inl ⟨a, n, rfl, Nat.lt_of_not_le h⟩⟩
  | writeMem a bs =>
    by_cases h : a + bs.length ≤ s.cfg.hostMemSize
    · exact .inl (hostStep_writeMem h ▸ leadsOn_next _)
    · exact .inr ⟨if_neg h, .inr ⟨a, bs, rfl, Nat.lt_of_not_le h⟩⟩

theorem moveBody_answers {s : State} (hs : s.Labelled) (m : Move) : answersMove s.cfg m (moveBody m s) := by
  cases m with
  | host a => exact hostStep_answers a s
  | channel c p => exact .inl (channelStep_leadsOn ((keepsChannels_pick p s).labelled hs) c)
  | worker p => exact .inl trivial
  | dmac e => exact .inl trivial
  | modemRx len f => exact .inl trivial
  | modemTx => exact .inl trivial
  | clock => exact .inl trivial
  | reset => exact .inl trivial

theorem act_answers {s : State} (hs : s.Labelled) (m : Move) : answersMove s.cfg m (act m s) := by
  unfold act
  obtain hn | ⟨hf, hm⟩ := moveBody_answers hs m
  · obtain ⟨t, ht⟩ := eq_next_of_leadsOn hn
    exact .inl (ht ▸ leadsOn_next t.latch)
  · exact .inr ⟨by rw [hf]; rfl, hm⟩

/-- A step under a legal configuration: taking the next move touches neither the channels nor the configuration. -/
theorem step_answers {s : State} (hw : s.cfg.wf = true) (hs : s.Labelled) :
    answersMove s.cfg s.nextMove.1 (step s) := by
  have hnext : s.nextMove.2.Labelled ∧ s.nextMove.2.cfg = s.cfg := by
    rw [State.nextMove_frame]
    exact ⟨hs, rfl⟩
  obtain ⟨hl, hcfg⟩ := hnext
  rw [step_eq_act hw, ← hcfg]
  exact act_answers hl s.nextMove.1

/-- Settles O11: of the two answers of a step, the one that does not lead on is the stop of a host access. -/
theorem noCommandIsRefused : Obligations.NoCommandIsRefused := by
  unfold Obligations.NoCommandIsRefused
  intro s hw hs
  obtain hn | ⟨hf, hm⟩ := step_answers hw hs
  · obtain ⟨t, ht⟩ := eq_next_of_leadsOn hn
    simp [ht]
  · refine ⟨fun x hx => ?_, fun f hx => ?_⟩
    · rw [hf] at hx
      cases hx
    · rw [hf] at hx
      cases hx
      exact ⟨rfl, hm⟩

end Sys2Proof.Machine
end

section
/-! SUPPORT. The state after reset (R1001). Every state element has its stated value there, and that alone (in a legal
configuration, for the bounds on the transfer ids) is why every invariant holds: each is a lemma about `State.AtReset`,
whatever the model's own fields hold. -/

namespace Sys2Proof.Machine

/-! ## The parts of a state after reset -/

theorem Operands.get_default (i : Fin 8) : ({} : Operands).get i = 0#32 := by
  fin_cases i <;> rfl

theorem Results.get_default (i : Fin 10) : ({} : Results).get i = 0#32 := by
  fin_cases i <;> rfl

theorem Dmac.read_default {r : DReg} (h : r ≠ .irqMask) : ({} : Dmac).read r = 0#32 := by
  cases r with
  | irqMask => exact absurd rfl h
  | _ => rfl

theorem ModemTx.read_default (r : TReg) : ({} : ModemTx).read r = 0#32 := by
  cases r <;> rfl

theorem ModemRx.read_default (r : RReg) : ({} : ModemRx).read r = 0#32 := by
  cases r with
  | frCoef k => fin_cases k <;> rfl
  | _ => rfl

/-- A register of one bit, cleared, holds no reserved bit. -/
theorem U32.toNat_lt_two_of_eq_zero {v : U32} (hv : v = 0#32) : v.toNat < 2 := by rw [hv]; decide

section ResetOf

variable (c : Config) (n : Nat)

@[simp] theorem State.resetOf_chan (ch : Channel) : (State.resetOf c n).chan ch = {} := by cases ch <;> rfl
@[simp] theorem State.resetOf_dmac (e : Engine) : (State.resetOf c n).dmac e = {} := by cases e <;> rfl
@[simp] theorem State.resetOf_line (l : Space) : (State.resetOf c n).line l = {} := by cases l <;> rfl
@[simp] theorem State.resetOf_isOpen (e : Engine) : (State.resetOf c n).isOpen e = false := by cases e <;> rfl
@[simp] theorem State.resetOf_space (sp : ByteSpace) : (State.resetOf c n).space sp = [] := by
  cases sp with
  | buf e => cases e <;> rfl
  | hostMem => rfl

theorem State.resetOf_atReset : (State.resetOf c n).AtReset where
  arguments ch i := by rw [State.resetOf_chan]; exact Operands.get_default i
  results ch i := by rw [State.resetOf_chan]; exact Results.get_default i
  command ch := by rw [State.resetOf_chan]
  busy ch := by rw [State.resetOf_chan]
  status ch := by rw [State.resetOf_chan]
  issueStatus := rfl
  label ch := by rw [State.resetOf_chan]
  worker := rfl
  closed := State.resetOf_isOpen c n
  bytes := State.resetOf_space c n
  dmacMask e := by rw [State.resetOf_dmac]
  dmacOther e r hr := by rw [State.resetOf_dmac]; exact Dmac.read_default hr
  dmacQueue e := by rw [State.resetOf_dmac]
  mtx := ModemTx.read_default
  mrx := ModemRx.read_default
  rxq := rfl
  lines l := by rw [State.resetOf_line]; exact ⟨rfl, rfl⟩
  txFramer := ⟨rfl, rfl, rfl⟩
  rxFlags := ⟨rfl, rfl, rfl, rfl⟩
  rxCounters := ⟨rfl, rfl, rfl, rfl⟩
  rxUnspecified := ⟨rfl, rfl⟩
  time := rfl
  log := rfl
  faults := ⟨rfl, rfl⟩

end ResetOf

/-- The fields that the reset event keeps are the model's own, and no reset value is about them (log 10). -/
theorem State.resetEvent_atReset (s : State) : s.resetEvent.AtReset :=
  { State.resetOf_atReset s.cfg (s.epoch + 1) with }

namespace State.AtReset

variable {s : State}

/-! ## Lines and the latch rule -/

theorem irqPending (h : s.AtReset) (e : Engine) : (s.dmac e).irqPending = 0#32 :=
  h.dmacOther e .irqPending nofun

/-- No transfer has signalled, and `RXQ` is empty, so every source is low (R150). -/
theorem level (h : s.AtReset) (l : Space) : s.level l = false := by
  cases l with
  | mtx => rfl
  | mrx => simp [State.level, h.rxq]
  | dtx => exact decide_eq_false (not_not_intro (h.irqPending .tx))
  | drx => exact decide_eq_false (not_not_intro (h.irqPending .rx))

/-- With every source low the latch rule finds nothing to latch (R408). -/
theorem latch (h : s.AtReset) : s.latch = s := by
  simp only [State.latch, h.level, Line.latch_low]

theorem linesSettled (h : s.AtReset) : s.LinesSettled where
  masked l _ := (h.lines l).1
  mtxQuiet := (h.lines .mtx).2

/-! ## Channels, lists and registers -/

theorem labelled (h : s.AtReset) : s.Labelled := fun c => .inl ⟨h.busy c, h.label c⟩

theorem canonical (h : s.AtReset) : s.Canonical := by
  obtain ⟨htable, hverdicts⟩ := h.rxUnspecified
  have hnil {α : Type} {m : Sparse α} (hm : m = []) : Sparse.wf m := hm ▸ .nil
  exact ⟨hnil (h.bytes (.buf .tx)), hnil (h.bytes (.buf .rx)), hnil (h.bytes .hostMem), hnil htable, hnil hverdicts⟩

theorem dmacLegal (h : s.AtReset) {c : Config} (hc : c.wf = true) (e : Engine) : (s.dmac e).Legal c := by
  obtain ⟨hpos, -⟩ := Config.wf_transferIds hc
  have hzero (r : DReg) (hr : r ≠ .irqMask) : ((s.dmac e).read r).toNat = 0 := by rw [h.dmacOther e r hr]; rfl
  have hpending : (s.dmac e).irqPending.toNat = 0 := hzero .irqPending nofun
  have hcontrol : (s.dmac e).control.toNat = 0 := hzero .control nofun
  have hflags : (s.dmac e).flags.toNat = 0 := hzero .flags nofun
  have hid : (s.dmac e).transferId.toNat = 0 := hzero .transferId nofun
  have hdone : (s.dmac e).transferDone.toNat = 0 := hzero .transferDone nofun
  have hqueue := h.dmacQueue e
  exact
    { irqMask := by rw [h.dmacMask e]; decide
      irqPending := by omega
      control := by omega
      flags := by omega
      transferId := by omega
      transferDone := hdone ▸ Nat.two_pow_pos _
      queueLength := by rw [hqueue]; exact Nat.zero_le _
      queueIds := by rw [hqueue]; nofun
      onlyHeadStarted := by rw [hqueue]; nofun
      abortedWhenDisabled := fun _ => hqueue }

theorem regsLegal (h : s.AtReset) (hc : s.cfg.wf = true) : s.RegsLegal where
  dtx := h.dmacLegal hc .tx
  drx := h.dmacLegal hc .rx
  mtxReset := U32.toNat_lt_two_of_eq_zero (h.mtx .reset)
  mrxReset := U32.toNat_lt_two_of_eq_zero (h.mrx .reset)
  rxEnable := U32.toNat_lt_two_of_eq_zero (h.mrx .rxEnable)
  bypassCoding := U32.toNat_lt_two_of_eq_zero (h.mrx .bypassCoding)
  bypassEq := U32.toNat_lt_two_of_eq_zero (h.mrx .bypassEq)
  rxqLength := by rw [h.rxq]; exact Nat.zero_le _
  rxqReset _ := h.rxq

/-! ## The receiver: no cycle is under way, the worker is dead, the table is empty -/

theorem phaseFollowsConsumer (h : s.AtReset) : s.PhaseFollowsConsumer := by
  have hpc : s.chRx.pc = .idle := h.label .rx
  obtain ⟨-, hstate, -, hdone⟩ := h.rxFlags
  exact (State.PhaseFollowsConsumer.iff_resting (by rw [hpc]; rfl)).2 ⟨by simp [hstate], by simp [hstate], hdone⟩

theorem workerOwns (h : s.AtReset) : s.WorkerOwns := by
  have hpc : s.chRx.pc = .idle := h.label .rx
  exact .of_dead h.worker fun harming => by rw [hpc] at harming; cases harming

theorem workerHealthy (h : s.AtReset) : s.WorkerHealthy where
  codeZero halive := absurd h.worker halive
  budget halive := absurd h.worker halive
  armed harmed := absurd ((h.label .rx).symm.trans harmed) nofun

theorem tableOrdered (h : s.AtReset) : s.TableOrdered := by
  have hpc : s.chRx.pc = .idle := h.label .rx
  obtain ⟨hcount, hnext, -, -⟩ := h.rxCounters
  obtain ⟨htable, -⟩ := h.rxUnspecified
  exact .cleared (by rw [htable]; nofun) hcount h.worker (fun _ => hnext) (by rw [hpc]; rfl)

/-! ## Bounds, windows and status -/

theorem bytesInBounds (h : s.AtReset) : s.BytesInBounds := by
  have htx : s.chTx.pc = .idle := h.label .tx
  have hrx : s.chRx.pc = .idle := h.label .rx
  have hnil {m : Memory} {size : Nat} (hm : m = []) : m.within size := by rw [hm]; nofun
  exact ⟨hnil (h.bytes (.buf .tx)), hnil (h.bytes (.buf .rx)), hnil (h.bytes .hostMem),
    (State.localsInRange_iff s).2 ⟨.of_pc (by rw [htx]; rfl), .of_pc (by rw [hrx]; rfl)⟩⟩

theorem tame (h : s.AtReset) : s.Tame := by
  have htx : s.dtx.queue = [] := h.dmacQueue .tx
  have hrx : s.drx.queue = [] := h.dmacQueue .rx
  have hpcTx : s.chTx.pc = .idle := h.label .tx
  have hpcRx : s.chRx.pc = .idle := h.label .rx
  exact
    { queueTx := by rw [htx]; nofun
      queueRx := by rw [hrx]; nofun
      commandTx := by rw [hpcTx]; nofun
      commandRx := by rw [hpcRx]; nofun
      flushTx := by rw [hpcTx]; nofun
      readRx := by rw [h.worker]; nofun
      noWild := h.faults.1 }

theorem neverTimeout (h : s.AtReset) : s.NeverTimeout := by
  have hok : (0#32 : U32) ≠ Status.eTimeout.code := by decide
  obtain ⟨-, -, hret, -⟩ := h.rxCounters
  exact ⟨fun c => h.status c ▸ hok, hret ▸ hok⟩

end State.AtReset

/-- The reset event leaves nothing for the latch rule that follows it. -/
theorem act_reset (s : State) : act .reset s = .next s.resetEvent :=
  congrArg Host.Outcome.next s.resetEvent_atReset.latch

/-- Settles O4: the defaults of the state's parts, and a reset event that the latch rule leaves as it is. -/
theorem resetLeavesStatedValues : Obligations.ResetLeavesStatedValues := by
  unfold Obligations.ResetLeavesStatedValues
  exact ⟨fun c n => ⟨State.resetOf_atReset c n, rfl⟩,
    fun s => ⟨s.resetEvent, act_reset s, s.resetEvent_atReset, rfl⟩⟩

/-- Settles O5: each invariant follows from the reset values. -/
theorem invariantsHoldAtReset : Obligations.InvariantsHoldAtReset := by
  unfold Obligations.InvariantsHoldAtReset
  intro c n hc
  have h := State.resetOf_atReset c n
  exact ⟨h.labelled, h.canonical, h.regsLegal hc, h.linesSettled, h.phaseFollowsConsumer, h.workerOwns,
    h.workerHealthy, h.tableOrdered, h.bytesInBounds, h.tame, h.neverTimeout⟩

end Sys2Proof.Machine
end
